-- ==== Sys2Proof/Word.lean ====
section
/-! DEFINITION. The word types of tile_atlas_sampler: bytes, host words, host addresses. -/

namespace Sys2Proof

/-- A pixel byte, tile index, object field or operand (rule R13). Bit 0 is the top pixel of a column (rule R12). -/
abbrev Byte := BitVec 8

/-- A host register, a host access or a command word (rules R13, R88, R110). -/
abbrev Word := BitVec 16

/-- A word address of the host space, 0x0000 to 0x1FFF (rules R81, R250). -/
abbrev HostAddr := BitVec 13

end Sys2Proof
end

