-- ==== Sys2Proof/Syntax.lean ====
section
/-! DEFINITION. The nine commands (rule R112), one constructor per row of spec/opcode_table.json. -/

namespace Sys2Proof

/-- A command as decoded from its OP (rule R116). Every command keeps its ARG byte: for a `none` command ARG is
reserved and must be 0, and a word with another ARG still decodes to that command and faults in the operand check
(rules R112, R114). -/
inductive Instr where
  /-- Do nothing and complete (rule R254). -/
  | nop (arg : Byte)
  /-- Full playfield resynchronization (rule R164). -/
  | pfReload (arg : Byte)
  /-- Incremental edge refresh (rule R166). -/
  | pfAdjust (arg : Byte)
  /-- Zero the strip buffer (rule R211). -/
  | stripClear (arg : Byte)
  /-- Background of strip s (rule R216). -/
  | stripBg (s : Byte)
  /-- Composite the visible objects onto strip s (rule R188). -/
  | stripSprites (s : Byte)
  /-- Hand the strip buffer to the sink as page s (rule R219). -/
  | stripEmit (s : Byte)
  /-- Render and emit strip s (rule R220). -/
  | renderStrip (s : Byte)
  /-- Render and emit every strip (rule R221). -/
  | renderFrame (arg : Byte)
deriving DecidableEq, Repr

end Sys2Proof
end

