-- ==== Sys2Proof/Decode.lean ====
section
/-! DEFINITION. The decoder of rule R116, total on all 16-bit words, and the encoder from the same table (rule R112). -/

namespace Sys2Proof

/-- Why a word is no command. -/
inductive DecodeError where
  /-- OP is none of the nine opcodes of rule R112 (rule R113). -/
  | illegalCmd (w : Word)
deriving DecidableEq, Repr

/-- OP = word[15:8] (rule R110). -/
def wordOp (w : Word) : Byte := w.extractLsb' 8 8

/-- ARG = word[7:0] (rule R110). -/
def wordArg (w : Word) : Byte := w.extractLsb' 0 8

/-- The decode function of rule R116. It reads OP only. -/
def decode (w : Word) : Except DecodeError Instr :=
  match (wordOp w).toNat with
  | 0x00 => .ok (.nop (wordArg w))
  | 0x01 => .ok (.pfReload (wordArg w))
  | 0x02 => .ok (.pfAdjust (wordArg w))
  | 0x10 => .ok (.stripClear (wordArg w))
  | 0x11 => .ok (.stripBg (wordArg w))
  | 0x12 => .ok (.stripSprites (wordArg w))
  | 0x13 => .ok (.stripEmit (wordArg w))
  | 0x20 => .ok (.renderStrip (wordArg w))
  | 0x21 => .ok (.renderFrame (wordArg w))
  | _ => .error (.illegalCmd w)

/-- The OP field of a command (rule R112). -/
def Instr.op : Instr → Byte
  | .nop _ => 0x00
  | .pfReload _ => 0x01
  | .pfAdjust _ => 0x02
  | .stripClear _ => 0x10
  | .stripBg _ => 0x11
  | .stripSprites _ => 0x12
  | .stripEmit _ => 0x13
  | .renderStrip _ => 0x20
  | .renderFrame _ => 0x21

/-- The ARG field of a command (rule R110). -/
def Instr.arg : Instr → Byte
  | .nop a => a
  | .pfReload a => a
  | .pfAdjust a => a
  | .stripClear a => a
  | .stripBg s => s
  | .stripSprites s => s
  | .stripEmit s => s
  | .renderStrip s => s
  | .renderFrame a => a

/-- The command word, OP in the high byte and ARG in the low byte (rule R110). -/
def encode (i : Instr) : Word := i.op ++ i.arg

/-- The first `nbits` bits of `w`, every further bit 0, as one command word (rule R115: there is no other length). -/
def tableWord (nbits w : Nat) : Word := BitVec.ofNat 16 (w % 2 ^ nbits)

/-- The instruction that `decode` reads from a row's word. -/
def decodeTableWord (nbits w : Nat) : Option Instr :=
  match decode (tableWord nbits w) with
  | .ok i => some i
  | .error _ => none

end Sys2Proof
end

