-- ==== Sys2Proof/Config.lean ====
section
/-! DEFINITION. What is fixed when an instance of the block is built (rule R8), and the free values. -/

namespace Sys2Proof

/-- The read-only spaces of `MemRead` (rules R15, R80). -/
inductive Space where
  | tileRom
  | spr8Rom
  | spr16Rom
  | mapRom
deriving DecidableEq, Repr

/-- The block's three internal memories (rules R50, R52, R54). -/
inductive Ram where
  | pf
  | obj
  | strip
deriving DecidableEq, Repr

/-- The configuration record of rule R8. The legal ranges and the ROM sizes are `Config.wf` (WellFormed.lean). -/
structure Config where
  /-- VC: viewport width in tiles. -/
  vc : Nat
  /-- VR: viewport height in tiles, the number of strips. -/
  vr : Nat
  /-- MAP_HEIGHT: rows of the source tile map. -/
  mapHeight : Nat
  /-- TILE_COUNT: tiles in the tile atlas. -/
  tileCount : Nat
  /-- SPR8_COUNT: 8×8 sprites. -/
  spr8Count : Nat
  /-- SPR16_COUNT: 16×16 sprites. -/
  spr16Count : Nat
  /-- OBJ_CAP: capacity of the object list. -/
  objCap : Nat
  /-- Contents of TILE_ROM (rule R83). -/
  tileRom : List Byte
  /-- Contents of SPR8_ROM (rule R84). -/
  spr8Rom : List Byte
  /-- Contents of SPR16_ROM (rule R85). -/
  spr16Rom : List Byte
  /-- Contents of MAP_ROM (rule R86). -/
  mapRom : List Byte
deriving DecidableEq, Repr

/-- W, display width in pixels and bytes per strip (rule R8). -/
def Config.width (c : Config) : Nat := 8 * c.vc

/-- HPX, display height in pixels (rule R8). -/
def Config.height (c : Config) : Nat := 8 * c.vr

/-- ROWS of the playfield torus (rule R8). -/
def Config.rows (c : Config) : Nat := c.vr + 2

/-- COLS of the playfield torus and of the source map (rule R8). -/
def Config.cols (c : Config) : Nat := c.vc + 2

/-- The bytes of a read-only space. -/
def Config.rom (c : Config) : Space → List Byte
  | .tileRom => c.tileRom
  | .spr8Rom => c.spr8Rom
  | .spr16Rom => c.spr16Rom
  | .mapRom => c.mapRom

/-- FREE VALUE (rules R50, R54, R60; S1, S2, S4 of 93_implementation_defined.md): what a location of an internal
memory holds that nothing has written since the reset with this number. No body: nothing can be proved of it.
Log entries 3 and 6. -/
opaque Config.freeRam : Ram → Nat → Nat → Byte

/-- FREE VALUE: what lies beyond the end of a read-only space. No command of a well-formed configuration reads
there (rules R142, R147). Log entry 9. -/
opaque Config.freeRom : Space → Nat → Byte

/-- CFG-REF of 95_test_vectors.md section 1: the reference geometry of rule R10 with the data of the source's
end-to-end scenario. DESIGN CHOICE, log entry 1: the instance that `State.reset` describes. -/
def Config.reference : Config where
  vc := 16
  vr := 8
  mapHeight := 10
  tileCount := 2
  spr8Count := 1
  spr16Count := 0
  objCap := 8
  tileRom := List.replicate 8 0x00#8 ++ List.replicate 8 0xFF#8
  spr8Rom := List.replicate 8 0x00#8 ++ List.replicate 8 0xAA#8
  spr16Rom := []
  mapRom := List.replicate 18 0x01#8 ++ List.replicate 162 0x00#8

end Sys2Proof
end

