-- ==== Sys2Proof/Machine/State.lean ====
section
/-! DEFINITION. The state of the machine as plain data, its stops, and the state after reset (rules R30 to R60). -/

namespace Sys2Proof.Machine

open Sys2Proof

/-- An internal memory: (address, byte) pairs with addresses strictly rising (`Memory.wf`). An address that is not
listed holds no written value. -/
abbrev Memory := List Host.Cell

/-- What the host does next: a line of its script (rules R118, R119). -/
inductive HostOp where
  /-- `RD a` (rule R251). -/
  | read (a : HostAddr)
  /-- `WR a, v` (rule R252). -/
  | write (a : HostAddr) (v : Word)
  /-- `WAIT`: RD STATUS, again while BUSY is 1 (rule R119). -/
  | wait
deriving DecidableEq, Repr

/-- Who moves (rules R11, R250, R255, R291, R300). -/
inductive Turn where
  /-- The host makes its next access. -/
  | host
  /-- The engine: an accepted command completes (rule R255). -/
  | engine
  /-- The page sink says how many more pages it takes before it stalls; `none`: every page (rule R291). -/
  | sink (room : Option Nat)
  /-- The reset input is asserted (rule R300). -/
  | reset
deriving DecidableEq, Repr

/-- CTRL bits 3:0 (rule R31); bits 15:4 are reserved and read 0. -/
structure Ctrl where
  fineXEn : Bool
  fineYEn : Bool
  doneIe : Bool
  faultIe : Bool
deriving DecidableEq, Repr

/-- The stored STATUS bits (rule R32). BUSY is `State.busy` and IRQ is `State.irq`; bits 15:7 are reserved and read 0. -/
structure Status where
  done : Bool
  fault : Bool
  pfValid : Bool
  stripValid : Bool
  wrIgnored : Bool
deriving DecidableEq, Repr

/-- What the command sequencer holds (rule R48): the accepted word and, during RENDER_FRAME, the strip in progress. -/
structure Running where
  word : Word
  strip : Nat
deriving DecidableEq, Repr

/-- One page handed to the sink: its index and its W bytes (rule R57). -/
structure Page where
  index : Nat
  bytes : List Byte
deriving DecidableEq, Repr

/-- The machine. The fields from `script` on are the model's own (log entries 3, 5 and 8). -/
structure State where
  /-- The configuration (rule R8), changed by nothing. -/
  cfg : Config
  /-- CTRL (rule R31). -/
  ctrl : Ctrl
  /-- STATUS (rule R32). -/
  status : Status
  /-- SCROLL_X (rule R34). -/
  scrollX : Word
  /-- SCROLL_Y (rule R35). -/
  scrollY : Word
  /-- OBJ_COUNT bits 7:0 (rule R36). -/
  objCount : Byte
  /-- FAULT_CODE (rule R37). -/
  faultCode : Word
  /-- FAULT_INFO (rule R38). -/
  faultInfo : Word
  /-- FAULT_LOC (rule R39). -/
  faultLoc : Word
  /-- PF_ORIGIN bits 12:0 (rule R40). -/
  pfOrigin : BitVec 13
  /-- The command sequencer (rule R48); `none` is idle. -/
  sequencer : Option Running
  /-- The playfield (rule R50), cell (r, c) at address r*COLS + c. -/
  pf : Memory
  /-- The object list (rule R52), field f of entry k at address 4k + f; a listed address is a set written flag
  (rule R60). -/
  obj : Memory
  /-- The strip buffer (rule R54), byte x at address x. -/
  strip : Memory
  /-- PAGES (rule R57), oldest first. -/
  pages : List Page
  /-- The ghost fault mark (rules R281, R315). -/
  faulted : Bool
  /-- The accesses the host still makes, first one first. -/
  script : List HostOp
  /-- Who moves next, first turn first. -/
  turns : List Turn
  /-- The values handed back to host reads, oldest first. -/
  replies : List Word
  /-- How many more pages the sink takes before it stalls; `none`: every page. -/
  sinkRoom : Option Nat
  /-- How many reset events this machine has taken. -/
  resets : Nat
deriving DecidableEq, Repr

/-- What stops the machine. -/
inductive Fault where
  /-- UNWRITTEN_OBJ, the model-only fault of rules R60 and R271: STRIP_SPRITES, RENDER_STRIP or RENDER_FRAME reads
  a field of object entry `k` that the host has not written since reset. Safe: the hardware goes on with whatever the
  RAM holds (log entry 2). -/
  | unwrittenObj (k : Nat)
deriving DecidableEq, Repr

/-- What the model gives no meaning to. -/
inductive Refusal where
  /-- An instruction without a meaning; no arm of `exec` answers it. Safe. -/
  | notModelled (mnemonic : String)
  /-- `step` on a configuration that is not well-formed: it describes no hardware (rules R9, R272). Safe. -/
  | configNotWellFormed
deriving DecidableEq, Repr

/-- The state after power-on reset of an instance with configuration `c` (rules R59, R301). -/
def State.powerOn (c : Config) : State where
  cfg := c
  ctrl := { fineXEn := true, fineYEn := true, doneIe := false, faultIe := false }
  status := { done := false, fault := false, pfValid := false, stripValid := false, wrIgnored := false }
  scrollX := 0x0000
  scrollY := 0x0000
  objCount := 0x00
  faultCode := 0x0000
  faultInfo := 0x0000
  faultLoc := 0x0000
  pfOrigin := 0
  sequencer := none
  pf := []
  obj := []
  strip := []
  pages := []
  faulted := false
  script := []
  turns := []
  replies := []
  sinkRoom := none
  resets := 0

/-- The state after reset of the reference instance (log entry 1). -/
def State.reset : State := State.powerOn Config.reference

end Sys2Proof.Machine
end

