-- ==== Sys2Proof/Machine/Flags.lean ====
section
/-! DEFINITION. The flag registers as host words: CTRL, STATUS, the IRQ level, and the fault record's fields. -/

namespace Sys2Proof.Machine

open Sys2Proof

/-- STATUS.BUSY: the sequencer holds a command, from acceptance to completion (rules R32, R48, R253, R256). -/
def State.busy (s : State) : Bool := s.sequencer.isSome

/-- The IRQ output, a level (rules R56, R284). -/
def State.irq (s : State) : Bool :=
  (s.status.done && s.ctrl.doneIe) || (s.status.fault && s.ctrl.faultIe)

/-- A word with bit `n` equal to `b` and every other bit 0. -/
def flagBit (b : Bool) (n : Nat) : Word := if b then BitVec.ofNat 16 (2 ^ n) else 0

/-- CTRL as read (rule R31). -/
def State.ctrlWord (s : State) : Word :=
  flagBit s.ctrl.fineXEn 0 ||| flagBit s.ctrl.fineYEn 1 ||| flagBit s.ctrl.doneIe 2 ||| flagBit s.ctrl.faultIe 3

/-- CTRL as written: bits 3:0 of the value (rule R258). -/
def ctrlOfWord (v : Word) : Ctrl where
  fineXEn := v.getLsbD 0
  fineYEn := v.getLsbD 1
  doneIe := v.getLsbD 2
  faultIe := v.getLsbD 3

/-- STATUS as read (rule R32). -/
def State.statusWord (s : State) : Word :=
  flagBit s.busy 0 ||| flagBit s.status.done 1 ||| flagBit s.status.fault 2 ||| flagBit s.status.pfValid 3 |||
    flagBit s.status.stripValid 4 ||| flagBit s.status.wrIgnored 5 ||| flagBit s.irq 6

/-- The write-one-to-clear bits of STATUS (rule R257). -/
def Status.clear (st : Status) (v : Word) : Status :=
  { st with
    done := st.done && !v.getLsbD 1
    fault := st.fault && !v.getLsbD 2
    wrIgnored := st.wrIgnored && !v.getLsbD 5 }

/-- The fault codes the hardware raises (rule R271). -/
inductive FaultCode where
  | illegalCmd
  | badOperand
  | pfNotLoaded
  | stripNotValid
  | tileIndexOor
  | spriteIndexOor
deriving DecidableEq, Repr

/-- FAULT_CODE[3:0] (rule R271). -/
def FaultCode.number : FaultCode → BitVec 4
  | .illegalCmd => 1
  | .badOperand => 2
  | .pfNotLoaded => 3
  | .stripNotValid => 4
  | .tileIndexOor => 5
  | .spriteIndexOor => 6

/-- FAULT_CODE: the opcode in bits 15:8, 0 in bits 7:4, the code in bits 3:0 (rules R37, R271, R276). -/
def faultCodeWord (op : Byte) (code : FaultCode) : Word := op ++ (0#4 ++ code.number)

end Sys2Proof.Machine
end

