-- ==== Sys2Proof/Machine/Operands.lean ====
section
/-! DEFINITION. Operand forms (rule R111), the byte shifts (rule R13), and the scroll-derived values a command reads
(rules R160, R212 to R215). -/

namespace Sys2Proof.Machine

open Sys2Proof

/-- The two operand forms (rule R111). -/
inductive Form where
  | none
  | strip
deriving DecidableEq, Repr

/-- `operand_ok` of rule R116. -/
def operandOk (c : Config) (form : Form) (arg : Byte) : Bool :=
  match form with
  | .none => arg == 0
  | .strip => decide (arg.toNat < c.vr)

/-- `shl8`: bits shifted past bit 7 are lost (rule R13). -/
def shl8 (v : Byte) (n : Nat) : Byte := v <<< n

/-- `shr8`: zero bits enter at bit 7 (rule R13). -/
def shr8 (v : Byte) (n : Nat) : Byte := v >>> n

/-- `ones(n)`: n low bits set, n at most 8 (rule R13). -/
def ones (n : Nat) : Byte := BitVec.ofNat 8 (2 ^ n - 1)

/-- `hiones(n)`: n high bits set, n at most 8 (rule R13). -/
def hiones (n : Nat) : Byte := 255#8 - ones (8 - n)

/-- `{a, b}` of two bytes (rule R14). -/
def catBytes (a b : Byte) : Word := a ++ b

/-- `zext_16` (rule R14). -/
def zext16 (v : Byte) : Word := v.setWidth 16

/-- tX = SCROLL_X >> 3 (rule R212). -/
def State.tX (s : State) : Nat := s.scrollX.toNat / 8

/-- tY = SCROLL_Y >> 3 (rules R160, R212). -/
def State.tY (s : State) : Nat := s.scrollY.toNat / 8

/-- bXOff, forced to 0 by FINE_X_EN = 0 (rule R213). -/
def State.bXOff (s : State) : Nat := if s.ctrl.fineXEn then s.scrollX.toNat % 8 else 0

/-- bYOff, forced to 0 by FINE_Y_EN = 0 (rule R213). -/
def State.bYOff (s : State) : Nat := if s.ctrl.fineYEn then s.scrollY.toNat % 8 else 0

/-- The physical row that stores logical row `k` (rule R160). -/
def State.physRow (s : State) (k : Nat) : Nat := (s.tY + k) % s.cfg.rows

/-- The source-map row that logical row `k` represents (rule R160). -/
def State.mapRow (s : State) (k : Nat) : Nat := (s.tY + k) % s.cfg.mapHeight

/-- r0(s), the current tile row of strip `k` (rule R214). -/
def State.row0 (s : State) (k : Nat) : Nat := s.physRow k

/-- r1(s), the next torus row of strip `k` (rule R214). -/
def State.row1 (s : State) (k : Nat) : Nat := (s.row0 k + 1) % s.cfg.rows

/-- u, the pixel column within the sampled tile run (rule R215). -/
def State.bgPixel (s : State) (x : Nat) : Nat := s.bXOff + x

/-- c, the playfield column sampled for strip column `x` (rule R215). -/
def State.bgCol (s : State) (x : Nat) : Nat := (s.tX + s.bgPixel x / 8) % s.cfg.cols

end Sys2Proof.Machine
end

