-- ==== Sys2Proof/Machine/Ops.lean ====
section
/-! DEFINITION. The named operations over memory and registers, taking a fault and clearing it, and how a command
body ends. -/

namespace Sys2Proof.Machine

open Sys2Proof

/-! ### Memory -/

/-- The byte written at `a`, or none where nothing has been written. -/
def Memory.read : Memory → Nat → Option Byte
  | [], _ => none
  | (b, v) :: rest, a => if a = b then some v else Memory.read rest a

/-- Store `v` at `a`, keeping the addresses rising. -/
def Memory.write : Memory → Nat → Byte → Memory
  | [], a, v => [(a, v)]
  | (b, w) :: rest, a, v =>
    if a < b then (a, v) :: (b, w) :: rest
    else if a = b then (a, v) :: rest
    else (b, w) :: Memory.write rest a v

/-- Store a list of (address, byte) pairs, first to last. -/
def Memory.writeAll (m : Memory) (cells : List (Nat × Byte)) : Memory :=
  cells.foldl (fun m c => Memory.write m c.1 c.2) m

/-- Every address of the list is above `a`, and they rise. -/
def Memory.above (a : Nat) : Memory → Bool
  | [] => true
  | (b, _) :: rest => decide (a < b) && Memory.above b rest

/-- The canonical form: addresses strictly rising. -/
def Memory.wf : Memory → Bool
  | [] => true
  | (b, _) :: rest => Memory.above b rest

/-- `MemRead(S, a, 1)` (rule R15). -/
def memRead (c : Config) (sp : Space) (a : Nat) : Byte := ((c.rom sp)[a]?).getD (Config.freeRom sp a)

/-! ### Reading the internal memories -/

/-- Playfield cell at address `a` = r*COLS + c (rules R50, R51). -/
def State.pfByte (s : State) (a : Nat) : Byte := (s.pf.read a).getD (Config.freeRam .pf s.resets a)

/-- PF[r][c] (rule R50). -/
def State.cell (s : State) (r c : Nat) : Byte := s.pfByte (r * s.cfg.cols + c)

/-- STRIP[x] (rule R54). -/
def State.stripByte (s : State) (x : Nat) : Byte := (s.strip.read x).getD (Config.freeRam .strip s.resets x)

/-- The bits the object RAM holds at address `a` = 4k + f (rules R52, R53; S4). -/
def State.objByte (s : State) (a : Nat) : Byte := (s.obj.read a).getD (Config.freeRam .obj s.resets a)

/-- The strip buffer's W bytes, column 0 first (rules R87, R219). -/
def State.stripBytes (s : State) : List Byte := (List.range s.cfg.width).map s.stripByte

/-- One object-list entry (rule R52). -/
structure Obj where
  x : Byte
  y : Byte
  t : Byte
deriving DecidableEq, Repr

/-- Entry `k` as STRIP_SPRITES reads it: none where one of its written flags is clear (rule R60). -/
def State.objEntry (s : State) (k : Nat) : Option Obj :=
  match s.obj.read (4 * k), s.obj.read (4 * k + 1), s.obj.read (4 * k + 2) with
  | some x, some y, some t => some { x := x, y := y, t := t }
  | _, _, _ => none

/-! ### Register and memory updates -/

def State.setScript (s : State) (l : List HostOp) : State := { s with script := l }
def State.setTurns (s : State) (l : List Turn) : State := { s with turns := l }
def State.pushReply (s : State) (w : Word) : State := { s with replies := s.replies ++ [w] }
def State.setSinkRoom (s : State) (r : Option Nat) : State := { s with sinkRoom := r }
def State.setCtrl (s : State) (c : Ctrl) : State := { s with ctrl := c }
def State.setStatus (s : State) (st : Status) : State := { s with status := st }
def State.setScrollX (s : State) (v : Word) : State := { s with scrollX := v }
def State.setScrollY (s : State) (v : Word) : State := { s with scrollY := v }
def State.setObjCount (s : State) (v : Byte) : State := { s with objCount := v }
def State.setObj (s : State) (m : Memory) : State := { s with obj := m }
def State.setStrip (s : State) (m : Memory) : State := { s with strip := m }

/-- Write playfield cells. -/
def State.setPf (s : State) (m : Memory) : State := { s with pf := m }

/-- A playfield refresh is over: PF_ORIGIN <- tY (rules R40, R164, R166). -/
def State.setPfOrigin (s : State) : State := { s with pfOrigin := BitVec.ofNat 13 s.tY }

/-- STATUS.PF_VALID <- 1 (rule R164). -/
def State.markPfValid (s : State) : State := s.setStatus { s.status with pfValid := true }

/-- STATUS.STRIP_VALID <- 1 (rules R211, R216). -/
def State.markStripValid (s : State) : State := s.setStatus { s.status with stripValid := true }

/-- STATUS.WR_IGNORED <- 1: a dropped write changes nothing else (rule R294). -/
def State.dropWrite (s : State) : State := s.setStatus { s.status with wrIgnored := true }

/-- The sink takes one page, appended to PAGES (rules R57, R291). -/
def State.emitPage (s : State) (p : Page) : State :=
  { s with pages := s.pages ++ [p], sinkRoom := s.sinkRoom.map (· - 1) }

/-! ### Acceptance, completion, faults, reset -/

/-- Acceptance of command word `w` (rule R253): latch it, clear DONE, BUSY is 1. -/
def State.accept (s : State) (w : Word) : State :=
  { s with sequencer := some { word := w, strip := 0 }, status := { s.status with done := false } }

/-- Successful completion (rule R256): BUSY <- 0, DONE <- 1. -/
def State.complete (s : State) : State :=
  { s with sequencer := none, status := { s.status with done := true } }

/-- TAKING A FAULT, `raise Fault(code, info, loc)` (rule R276), of the command whose opcode is `op`: the record is
written, FAULT <- 1, BUSY <- 0, DONE is untouched. The ghost mark of rule R281 is set. -/
def State.raiseFault (s : State) (op : Byte) (code : FaultCode) (info loc : Word) : State :=
  { s with
    faultCode := faultCodeWord op code
    faultInfo := info
    faultLoc := loc
    status := { s.status with fault := true }
    sequencer := none
    faulted := true }

/-- THE RETURN FROM A FAULT and every other STATUS write (rules R257, R281): the W1C bits are cleared, and the fault
record words and the ghost mark stay. -/
def State.statusWrite (s : State) (v : Word) : State := s.setStatus (s.status.clear v)

/-- The reset event (rules R301, R302): everything the block holds takes its value of rule R59. The configuration,
the agents outside and what they were handed stay; the RAMs hold fresh unspecified contents. -/
def State.resetEvent (s : State) : State :=
  { State.powerOn s.cfg with
    script := s.script
    turns := s.turns
    replies := s.replies
    sinkRoom := s.sinkRoom
    resets := s.resets + 1 }

/-! ### Command bodies -/

/-- How a command's pseudocode ends. -/
inductive Body where
  /-- It ran to its end. -/
  | done (s : State)
  /-- `raise Fault(code, info, loc)`; `s` holds what the completed sub-steps did (rule R279). -/
  | raised (s : State) (code : FaultCode) (info loc : Word)
  /-- The sink stalls on the page of strip `k`; `s` holds what was done before (rule R291). -/
  | stalled (s : State) (k : Nat)
  /-- The model-only fault UNWRITTEN_OBJ on entry `k` (rule R60). -/
  | unwritten (k : Nat)
deriving DecidableEq, Repr

/-- Run `f` after a body that ran to its end; a fault inside a body ends the command at once (rule R220). -/
def Body.andThen (b : Body) (f : State → Body) : Body :=
  match b with
  | .done s => f s
  | .raised s code info loc => .raised s code info loc
  | .stalled s k => .stalled s k
  | .unwritten k => .unwritten k

/-- A `check` line: go on with `b`, or raise with nothing written (rules R16, R279). -/
def check (ok : Bool) (s : State) (code : FaultCode) (info : Word) (b : Body) : Body :=
  if ok then b else .raised s code info 0

/-- The command of word `w` waits in its emitting sub-step for strip `k` with BUSY = 1 (rule R291): the pages taken
so far are the sink's, and every register still reads as at acceptance (rules R251, R255). -/
def State.waitFor (s : State) (w : Word) (k : Nat) (t : State) : State :=
  { s with sequencer := some { word := w, strip := k }, pages := t.pages, sinkRoom := t.sinkRoom }

/-- The end of the command of word `w`, accepted in state `s` (rules R255, R256, R276). -/
def finish (w : Word) (s : State) (b : Body) : Host.Outcome State Fault Refusal :=
  match b with
  | .done t => .next t.complete
  | .raised t code info loc => .next (t.raiseFault (wordOp w) code info loc)
  | .stalled t k => .next (s.waitFor w k t)
  | .unwritten k => .fault (.unwrittenObj k)

end Sys2Proof.Machine
end

