-- ==== Sys2Proof/Machine/Playfield.lean ====
section
/-! DEFINITION. The playfield unit: PF_RELOAD and PF_ADJUST (41_playfield.md). -/

namespace Sys2Proof.Machine

open Sys2Proof

/-- The tile index at row `m`, column `c` of the source map (rule R86). -/
def mapByte (cfg : Config) (m c : Nat) : Byte := memRead cfg .mapRom (m * cfg.cols + c)

/-- What RowLoad(p, m) writes: source row `m` into physical row `p` (rule R163). -/
def rowCells (cfg : Config) (p m : Nat) : List (Nat × Byte) :=
  (List.range cfg.cols).map fun c => (p * cfg.cols + c, mapByte cfg m c)

/-- RowLoad of logical row `k` (rules R160, R163). -/
def State.rowLoad (s : State) (k : Nat) : State :=
  s.setPf (s.pf.writeAll (rowCells s.cfg (s.physRow k) (s.mapRow k)))

/-- RowLoad of a list of logical rows, in order. -/
def State.loadRows (s : State) (ks : List Nat) : State := ks.foldl State.rowLoad s

/-- PF_RELOAD after its check (rule R164). -/
def pfReloadBody (s : State) : Body :=
  .done (s.loadRows (List.range s.cfg.rows)).setPfOrigin.markPfValid

/-- PF_ADJUST after its checks (rule R166): the bottom border, then the top border. -/
def pfAdjustBody (s : State) : Body :=
  .done (s.loadRows [s.cfg.rows - 2, s.cfg.rows - 1]).setPfOrigin

/-- PF_RELOAD (rule R164). -/
def execPfReload (arg : Byte) (s : State) : Host.Outcome State Fault Refusal :=
  let w := encode (.pfReload arg)
  finish w s <|
    check (operandOk s.cfg .none arg) s .badOperand w <|
    pfReloadBody s

/-- PF_ADJUST (rule R166). -/
def execPfAdjust (arg : Byte) (s : State) : Host.Outcome State Fault Refusal :=
  let w := encode (.pfAdjust arg)
  finish w s <|
    check (operandOk s.cfg .none arg) s .badOperand w <|
    check s.status.pfValid s .pfNotLoaded w <|
    pfAdjustBody s

end Sys2Proof.Machine
end

