-- ==== Sys2Proof/Machine/Atlas.lean ====
section
/-! DEFINITION. The atlas sampler: TileFetch and SpriteFetch (40_atlas_sampler.md). -/

namespace Sys2Proof.Machine

open Sys2Proof

/-- The check of TileFetch: i < TILE_COUNT (rules R141, R142). -/
def tileInRange (c : Config) (i : Byte) : Bool := decide (i.toNat < c.tileCount)

/-- Byte `j` of tile `i` (rules R83, R141). -/
def tileByte (c : Config) (i : Byte) (j : Nat) : Byte := memRead c .tileRom (8 * i.toNat + j)

/-- TileFetch(i, j) (rule R141); none where it raises TILE_INDEX_OOR (rule R142). -/
def tileFetch (c : Config) (i : Byte) (j : Nat) : Option Byte :=
  if tileInRange c i then some (tileByte c i j) else none

/-- The size flag of a type byte (rule R143). -/
def sprBig (t : Byte) : Bool := t.getLsbD 7

/-- The sprite index of a type byte (rule R143). -/
def sprIdx (t : Byte) : Nat := t.toNat % 128

/-- h = w, 16 or 8 pixels (rule R143). -/
def sprSize (t : Byte) : Nat := if sprBig t then 16 else 8

/-- The count of the atlas that a type byte selects (rule R143). -/
def sprCount (c : Config) (t : Byte) : Nat := if sprBig t then c.spr16Count else c.spr8Count

/-- The check of SpriteFetch: idx < count (rules R146, R147). -/
def spriteInRange (c : Config) (t : Byte) : Bool := decide (sprIdx t < sprCount c t)

/-- The mask byte of column `i`, half `q` (rules R84, R85, R146). -/
def maskByte (c : Config) (t : Byte) (i q : Nat) : Byte :=
  if sprBig t then memRead c .spr16Rom (64 * sprIdx t + 16 * q + i) else memRead c .spr8Rom (16 * sprIdx t + i)

/-- The pattern byte of column `i`, half `q` (rules R84, R85, R146). -/
def patternByte (c : Config) (t : Byte) (i q : Nat) : Byte :=
  if sprBig t then memRead c .spr16Rom (64 * sprIdx t + 32 + 16 * q + i)
  else memRead c .spr8Rom (16 * sprIdx t + 8 + i)

/-- SpriteFetch(t, i, q) (rule R146); none where it raises SPRITE_INDEX_OOR (rule R147). -/
def spriteFetch (c : Config) (t : Byte) (i q : Nat) : Option (Byte × Byte) :=
  if spriteInRange c t then some (maskByte c t i q, patternByte c t i q) else none

end Sys2Proof.Machine
end

