-- ==== Sys2Proof/Machine/Sprites.lean ====
section
/-! DEFINITION. The sprite compositor: STRIP_SPRITES (42_sprite_compositor.md). -/

namespace Sys2Proof.Machine

open Sys2Proof

/-- Visible(k, s) of an entry on strip `strip`, on naturals that do not wrap (rule R182). -/
def visible (c : Config) (o : Obj) (strip : Nat) : Bool :=
  decide (o.y.toNat < 8 * strip + 8 ∧ 8 * strip < o.y.toNat + sprSize o.t ∧ o.x.toNat < c.width)

/-- One half of ColumnMP: half `q` lands at strip bit o = d + 8q (rule R185). -/
def halfMP (c : Config) (t : Byte) (i : Nat) (d : Int) (mp : Byte × Byte) (q : Nat) : Byte × Byte :=
  let o : Int := d + 8 * q
  if -8 < o ∧ o < 8 then
    if 0 ≤ o then
      (mp.1 &&& (shl8 (maskByte c t i q) o.toNat ||| ones o.toNat),
        mp.2 ||| shl8 (patternByte c t i q) o.toNat)
    else
      (mp.1 &&& (shr8 (maskByte c t i q) (-o).toNat ||| hiones (-o).toNat),
        mp.2 ||| shr8 (patternByte c t i q) (-o).toNat)
  else mp

/-- ColumnMP(t, i, d): the shifted mask and pattern of column `i` (rule R185). -/
def columnMP (c : Config) (t : Byte) (i : Nat) (d : Int) : Byte × Byte :=
  (List.range (sprSize t / 8)).foldl (halfMP c t i d) (0xFF, 0x00)

/-- The compositing of one strip byte: AND with the mask, then OR with the pattern (rules R184, R185). -/
def composite (old : Byte) (mp : Byte × Byte) : Byte := (old &&& mp.1) ||| mp.2

/-- DrawColumn(t, sx, i, d) (rule R185). -/
def State.drawColumn (t : Byte) (sx : Nat) (d : Int) (s : State) (i : Nat) : State :=
  s.setStrip (s.strip.write (sx + i) (composite (s.stripByte (sx + i)) (columnMP s.cfg t i d)))

/-- dw = min(w, W - sx) (rule R183). -/
def drawnWidth (c : Config) (o : Obj) : Nat := min (sprSize o.t) (c.width - o.x.toNat)

/-- d = sy - stripY, an integer (rule R185). -/
def stripOffset (o : Obj) (strip : Nat) : Int := (o.y.toNat : Int) - 8 * strip

/-- Draw one visible entry on strip `strip` (rule R188, draw pass). -/
def State.drawObj (strip : Nat) (s : State) (o : Obj) : State :=
  (List.range (drawnWidth s.cfg o)).foldl (State.drawColumn o.t o.x.toNat (stripOffset o strip)) s

/-- Draw entry `k` if it is visible; entries that are not are skipped (rules R180, R182). -/
def State.drawEntry (strip : Nat) (s : State) (k : Nat) : State :=
  match s.objEntry k with
  | some o => if visible s.cfg o strip then s.drawObj strip o else s
  | none => s

/-- The draw pass: entries 0 .. OBJ_COUNT - 1 in increasing order (rules R180, R188). -/
def State.drawAll (strip : Nat) (s : State) : State :=
  (List.range s.objCount.toNat).foldl (State.drawEntry strip) s

/-- What the check pass of STRIP_SPRITES finds. -/
inductive SpriteCheck where
  /-- Every visible entry's index is in range. -/
  | pass
  /-- Entry `k`, visible with type byte `t`, is out of range. -/
  | bad (k : Nat) (t : Byte)
  /-- A field of entry `k` was never written. -/
  | unwritten (k : Nat)
deriving DecidableEq, Repr

/-- The check pass over a list of entries, in order (rules R60, R188, R280). -/
def State.checkEntries (s : State) (strip : Nat) : List Nat → SpriteCheck
  | [] => .pass
  | k :: ks =>
    match s.objEntry k with
    | none => .unwritten k
    | some o =>
      if visible s.cfg o strip && !spriteInRange s.cfg o.t then .bad k o.t else s.checkEntries strip ks

/-- The check pass over the live entries (rule R188). -/
def State.spriteCheck (s : State) (strip : Nat) : SpriteCheck :=
  s.checkEntries strip (List.range s.objCount.toNat)

/-- STRIP_SPRITES from its check pass on (rule R188). -/
def stripSpritesBody (strip : Nat) (s : State) : Body :=
  match s.spriteCheck strip with
  | .pass => .done (s.drawAll strip)
  | .bad k t => .raised s .spriteIndexOor (catBytes (BitVec.ofNat 8 strip) t) (BitVec.ofNat 16 k)
  | .unwritten k => .unwritten k

/-- STRIP_SPRITES s (rule R188). -/
def execStripSprites (arg : Byte) (s : State) : Host.Outcome State Fault Refusal :=
  let w := encode (.stripSprites arg)
  finish w s <|
    check (operandOk s.cfg .strip arg) s .badOperand w <|
    check s.status.stripValid s .stripNotValid w <|
    stripSpritesBody arg.toNat s

end Sys2Proof.Machine
end

