-- ==== Sys2Proof/Machine/Rasterizer.lean ====
section
/-! DEFINITION. The page rasterizer: STRIP_CLEAR, STRIP_BG, STRIP_EMIT, RENDER_STRIP, RENDER_FRAME
(43_page_rasterizer.md). -/

namespace Sys2Proof.Machine

open Sys2Proof

/-- Write all W strip bytes, column 0 first, and set STRIP_VALID (rules R211, R216). -/
def State.fillStrip (s : State) (f : Nat → Byte) : State :=
  (s.setStrip (s.strip.writeAll ((List.range s.cfg.width).map fun x => (x, f x)))).markStripValid

/-- STRIP_CLEAR after its check (rule R211). -/
def stripClearBody (s : State) : Body := .done (s.fillStrip fun _ => 0x00#8)

/-- `shr8(a, bYOff) | shl8(b, 8 - bYOff)`: the vertical combination of two tile bytes (rules R215, R218). -/
def combineRows (a b : Byte) (y : Nat) : Byte := shr8 a y ||| shl8 b (8 - y)

/-- BgByte(s, x) of strip `k` (rule R215); the index checks are those of the check pass. -/
def State.bgByte (s : State) (k x : Nat) : Byte :=
  let j := s.bgPixel x % 8
  let a := tileByte s.cfg (s.cell (s.row0 k) (s.bgCol x)) j
  if s.bYOff = 0 then a
  else combineRows a (tileByte s.cfg (s.cell (s.row1 k) (s.bgCol x)) j) s.bYOff

/-- The cells (row, column) that column `x` of strip `k` samples, in check order (rule R216). -/
def State.sampledAt (s : State) (k x : Nat) : List (Nat × Nat) :=
  if s.bYOff = 0 then [(s.row0 k, s.bgCol x)] else [(s.row0 k, s.bgCol x), (s.row1 k, s.bgCol x)]

/-- Every cell strip `k` samples, x ascending, current row before next row (rules R216, R280). -/
def State.sampled (s : State) (k : Nat) : List (Nat × Nat) :=
  (List.range s.cfg.width).flatMap (s.sampledAt k)

/-- The first sampled cell whose tile index is out of range (rules R216, R277). -/
def State.firstBadCell (s : State) (k : Nat) : Option (Nat × Nat) :=
  (s.sampled k).find? fun rc => !tileInRange s.cfg (s.cell rc.1 rc.2)

/-- STRIP_BG from its check pass on (rule R216). -/
def stripBgBody (k : Nat) (s : State) : Body :=
  match s.firstBadCell k with
  | some rc =>
    .raised s .tileIndexOor (catBytes (BitVec.ofNat 8 k) (s.cell rc.1 rc.2))
      (BitVec.ofNat 16 (rc.1 * s.cfg.cols + rc.2))
  | none => .done (s.fillStrip (s.bgByte k))

/-- The emit line of STRIP_EMIT (rule R219): the page tagged `k`, or a wait while the sink stalls (rule R291). -/
def stripEmitBody (k : Nat) (s : State) : Body :=
  if s.sinkRoom = some 0 then .stalled s k
  else .done (s.emitPage { index := k, bytes := s.stripBytes })

/-- The four bodies of RENDER_STRIP (rule R220). -/
def renderStripBody (k : Nat) (s : State) : Body :=
  (((stripClearBody s).andThen (stripBgBody k)).andThen (stripSpritesBody k)).andThen (stripEmitBody k)

/-- The strip loop of RENDER_FRAME over a list of strips (rule R221). -/
def renderStrips : List Nat → State → Body
  | [], s => .done s
  | k :: ks, s => (renderStripBody k s).andThen (renderStrips ks)

/-- The strip in progress: 0 for a command just accepted, later ones after a wait on the sink (rules R48, R291). -/
def State.stripInProgress (s : State) : Nat :=
  match s.sequencer with
  | some q => q.strip
  | none => 0

/-- The strips RENDER_FRAME still has to render (rules R48, R221). -/
def State.stripsLeft (s : State) : List Nat := (List.range s.cfg.vr).drop s.stripInProgress

/-- STRIP_CLEAR (rule R211). -/
def execStripClear (arg : Byte) (s : State) : Host.Outcome State Fault Refusal :=
  let w := encode (.stripClear arg)
  finish w s <|
    check (operandOk s.cfg .none arg) s .badOperand w <|
    stripClearBody s

/-- STRIP_BG s (rule R216). -/
def execStripBg (arg : Byte) (s : State) : Host.Outcome State Fault Refusal :=
  let w := encode (.stripBg arg)
  finish w s <|
    check (operandOk s.cfg .strip arg) s .badOperand w <|
    check s.status.pfValid s .pfNotLoaded w <|
    stripBgBody arg.toNat s

/-- STRIP_EMIT s (rule R219). -/
def execStripEmit (arg : Byte) (s : State) : Host.Outcome State Fault Refusal :=
  let w := encode (.stripEmit arg)
  finish w s <|
    check (operandOk s.cfg .strip arg) s .badOperand w <|
    check s.status.stripValid s .stripNotValid w <|
    stripEmitBody arg.toNat s

/-- RENDER_STRIP s (rule R220). -/
def execRenderStrip (arg : Byte) (s : State) : Host.Outcome State Fault Refusal :=
  let w := encode (.renderStrip arg)
  finish w s <|
    check (operandOk s.cfg .strip arg) s .badOperand w <|
    check s.status.pfValid s .pfNotLoaded w <|
    renderStripBody arg.toNat s

/-- RENDER_FRAME (rule R221). -/
def execRenderFrame (arg : Byte) (s : State) : Host.Outcome State Fault Refusal :=
  let w := encode (.renderFrame arg)
  finish w s <|
    check (operandOk s.cfg .none arg) s .badOperand w <|
    check s.status.pfValid s .pfNotLoaded w <|
    renderStrips s.stripsLeft s

end Sys2Proof.Machine
end

