-- ==== Sys2Proof/Machine/System.lean ====
section
/-! DEFINITION. NOP (rule R254) and a word that is no command (rule R273). -/

namespace Sys2Proof.Machine

open Sys2Proof

/-- NOP (rule R254). -/
def execNop (arg : Byte) (s : State) : Host.Outcome State Fault Refusal :=
  let w := encode (.nop arg)
  finish w s <|
    check (operandOk s.cfg .none arg) s .badOperand w <|
    .done s

/-- An accepted word whose OP is in no row of the opcode map: ILLEGAL_CMD, nothing else (rules R113, R273). -/
def execIllegal (w : Word) (s : State) : Host.Outcome State Fault Refusal :=
  .next (s.raiseFault (wordOp w) .illegalCmd w 0)

end Sys2Proof.Machine
end

