-- ==== Sys2Proof/Machine/Dispatch.lean ====
section
/-! DEFINITION. One arm per command: Complete(w) of an accepted command (rules R255, R256). -/

namespace Sys2Proof.Machine

open Sys2Proof

def exec (i : Instr) (s : State) : Host.Outcome State Fault Refusal :=
  match i with
  | .nop arg => Sys2Proof.Machine.execNop arg s
  | .pfReload arg => Sys2Proof.Machine.execPfReload arg s
  | .pfAdjust arg => Sys2Proof.Machine.execPfAdjust arg s
  | .stripClear arg => Sys2Proof.Machine.execStripClear arg s
  | .stripBg arg => Sys2Proof.Machine.execStripBg arg s
  | .stripSprites arg => Sys2Proof.Machine.execStripSprites arg s
  | .stripEmit arg => Sys2Proof.Machine.execStripEmit arg s
  | .renderStrip arg => Sys2Proof.Machine.execRenderStrip arg s
  | .renderFrame arg => Sys2Proof.Machine.execRenderFrame arg s

end Sys2Proof.Machine
end

