-- ==== Sys2Proof/Machine/HostBus.lean ====
section
/-! DEFINITION. The host interface: the address map (rule R81), host reads (R251) and host writes (R252 to R261). -/

namespace Sys2Proof.Machine

open Sys2Proof

/-- The registers of rule R30. -/
inductive Reg where
  | ctrl | status | cmd | scrollX | scrollY | objCount | faultCode | faultInfo | faultLoc | pfOrigin
  | geometry | objCapacity | mapRows | atlasTiles | atlasSprites | reserved
deriving DecidableEq, Repr

/-- What a host word address selects (rule R81). -/
inductive Target where
  /-- A register. -/
  | reg (r : Reg)
  /-- Field word `a` = 4k + f of the object window, f < 3 (rule R53). -/
  | objField (a : Nat)
  /-- The reserved fourth word of an object entry (rule R53). -/
  | objReserved
  /-- Playfield cell `a` = r*COLS + c (rule R51). -/
  | pfCell (a : Nat)
  /-- Strip byte `x` (rule R55). -/
  | stripCol (x : Nat)
  /-- No location (rule R92). -/
  | unmapped
deriving DecidableEq, Repr

/-- The register at word address 0x000 to 0x00F (rule R30). -/
def regAt (a : Nat) : Reg :=
  match a with
  | 0x0 => .ctrl
  | 0x1 => .status
  | 0x2 => .cmd
  | 0x3 => .scrollX
  | 0x4 => .scrollY
  | 0x5 => .objCount
  | 0x6 => .faultCode
  | 0x7 => .faultInfo
  | 0x8 => .faultLoc
  | 0x9 => .pfOrigin
  | 0xA => .geometry
  | 0xB => .objCapacity
  | 0xC => .mapRows
  | 0xD => .atlasTiles
  | 0xE => .atlasSprites
  | _ => .reserved

/-- The host address map (rules R81, R92). -/
def target (c : Config) (a : Nat) : Target :=
  if a < 0x10 then .reg (regAt a)
  else if 0x400 ≤ a ∧ a < 0x400 + 4 * c.objCap then
    if (a - 0x400) % 4 = 3 then .objReserved else .objField (a - 0x400)
  else if 0x800 ≤ a ∧ a < 0x800 + c.rows * c.cols then .pfCell (a - 0x800)
  else if 0x1000 ≤ a ∧ a < 0x1000 + c.width then .stripCol (a - 0x1000)
  else .unmapped

/-- A register's value on a host read (rules R31 to R46). -/
def State.regRead (s : State) : Reg → Word
  | .ctrl => s.ctrlWord
  | .status => s.statusWord
  | .cmd => 0
  | .scrollX => s.scrollX
  | .scrollY => s.scrollY
  | .objCount => zext16 s.objCount
  | .faultCode => s.faultCode
  | .faultInfo => s.faultInfo
  | .faultLoc => s.faultLoc
  | .pfOrigin => s.pfOrigin.setWidth 16
  | .geometry => catBytes (BitVec.ofNat 8 s.cfg.vr) (BitVec.ofNat 8 s.cfg.vc)
  | .objCapacity => BitVec.ofNat 16 s.cfg.objCap
  | .mapRows => BitVec.ofNat 16 s.cfg.mapHeight
  | .atlasTiles => BitVec.ofNat 16 s.cfg.tileCount
  | .atlasSprites => catBytes (BitVec.ofNat 8 s.cfg.spr16Count) (BitVec.ofNat 8 s.cfg.spr8Count)
  | .reserved => 0

/-- `HostRead(a)` (rule R251). -/
def State.hostRead (s : State) (a : HostAddr) : Word :=
  match target s.cfg a.toNat with
  | .reg r => s.regRead r
  | .objField i => if s.busy then 0 else zext16 (s.objByte i)
  | .objReserved => 0
  | .pfCell i => if s.busy || !s.status.pfValid then 0 else zext16 (s.pfByte i)
  | .stripCol x => if s.busy || !s.status.stripValid then 0 else zext16 (s.stripByte x)
  | .unmapped => 0

/-- `CmdWrite(w)` while BUSY = 0 (rule R253). -/
def State.cmdWrite (s : State) (w : Word) : State :=
  if s.status.fault then s.dropWrite else s.accept w

/-- min(v[7:0], OBJ_CAP) (rules R36, R260). -/
def objCountOf (c : Config) (v : Word) : Byte := BitVec.ofNat 8 (min (v.extractLsb' 0 8).toNat c.objCap)

/-- `HostWrite(a, v)` (rule R252). -/
def State.hostWrite (s : State) (a : HostAddr) (v : Word) : State :=
  match target s.cfg a.toNat with
  | .reg .status => s.statusWrite v
  | .reg .cmd => if s.busy then s.dropWrite else s.cmdWrite v
  | .reg .ctrl => if s.busy then s.dropWrite else s.setCtrl (ctrlOfWord v)
  | .reg .scrollX => if s.busy then s.dropWrite else s.setScrollX v
  | .reg .scrollY => if s.busy then s.dropWrite else s.setScrollY v
  | .reg .objCount => if s.busy then s.dropWrite else s.setObjCount (objCountOf s.cfg v)
  | .objField i => if s.busy then s.dropWrite else s.setObj (s.obj.write i (v.extractLsb' 0 8))
  | .reg _ => s
  | .objReserved => s
  | .pfCell _ => s
  | .stripCol _ => s
  | .unmapped => s

/-- The word address of CMD (rule R33). -/
def addrCmd : HostAddr := 0x002

/-- The word address of STATUS (rule R32). -/
def addrStatus : HostAddr := 0x001

end Sys2Proof.Machine
end

