-- ==== Sys2Proof/Machine/Script.lean ====
section
/-! DEFINITION. The host: its turn, and the pseudo-instructions of rule R119 as the script they expand to. -/

namespace Sys2Proof.Machine

open Sys2Proof

/-- One access of the host, the next one of its script; a host with an empty script does nothing. WAIT is the loop of
rule R119: each turn is one RD STATUS, and it ends with the read that shows BUSY = 0. -/
def State.hostTurn (s : State) : State :=
  match s.script with
  | [] => s
  | .read a :: rest => (s.setScript rest).pushReply (s.hostRead a)
  | .write a v :: rest => (s.setScript rest).hostWrite a v
  | .wait :: rest =>
    let v := s.hostRead addrStatus
    (if v.getLsbD 0 then s else s.setScript rest).pushReply v

/-- `CMD <command>` (rule R118). -/
def scriptCmd (i : Instr) : List HostOp := [.write addrCmd (encode i)]

/-- `ISSUE <command>`: CMD, then WAIT (rule R119). -/
def scriptIssue (i : Instr) : List HostOp := scriptCmd i ++ [.wait]

/-- `CLRFAULT`: clears FAULT and WR_IGNORED (rule R119). -/
def scriptClrFault : List HostOp := [.write addrStatus 0x0024]

/-- `CLRDONE` (rule R119). -/
def scriptClrDone : List HostOp := [.write addrStatus 0x0002]

/-- `SETOBJ k, x, y, t` (rules R118, R119). -/
def scriptSetObj (k : Nat) (x y t : Word) : List HostOp :=
  [.write (BitVec.ofNat 13 (0x400 + 4 * k)) x, .write (BitVec.ofNat 13 (0x401 + 4 * k)) y,
    .write (BitVec.ofNat 13 (0x402 + 4 * k)) t]

/-- `SCROLL x, y` (rule R119). -/
def scriptScroll (x y : Word) : List HostOp := [.write 0x003 x, .write 0x004 y]

end Sys2Proof.Machine
end

