-- ==== Sys2Proof/Machine/Engine.lean ====
section
/-! DEFINITION. Who moves, the engine's turn and the turns of the agents around it (rules R250, R255, R291, R300). -/

namespace Sys2Proof.Machine

open Sys2Proof

/-- The engine's turn: the latched word is decoded and its command completes (rules R255, R273); an idle engine does
nothing (rule R293). -/
def engineTurn (s : State) : Host.Outcome State Fault Refusal :=
  match s.sequencer with
  | none => .next s
  | some q =>
    match decode q.word with
    | .ok i => exec i s
    | .error _ => execIllegal q.word s

/-- Who moves next: the head of `turns`; where it lists nobody, the engine while it is busy and the host while it is
idle (log entry 5). -/
def State.nextTurn (s : State) : Turn :=
  match s.turns with
  | t :: _ => t
  | [] => if s.busy then .engine else .host

/-- One turn of one agent. -/
def takeTurn (t : Turn) (s : State) : Host.Outcome State Fault Refusal :=
  match t with
  | .host => .next s.hostTurn
  | .engine => engineTurn s
  | .sink room => .next (s.setSinkRoom room)
  | .reset => .next s.resetEvent

/-- The turn of the agent that moves next, with that turn taken off the list. -/
def State.moveNext (s : State) : Host.Outcome State Fault Refusal := takeTurn s.nextTurn (s.setTurns s.turns.tail)

/-- An accepted command word, with the engine to move (rule R253). -/
def State.loadCommand (s : State) (w : Word) : State := (s.setTurns []).accept w

end Sys2Proof.Machine
end

