-- ==== Sys2Proof/WellFormed.lean ====
section
/-! DEFINITION. Well-formed configurations (rules R8, R9) and well-formed commands (rule R111). -/

namespace Sys2Proof

/-- VC and VR are in 1..32 (rule R8). -/
def Config.geometryOk (c : Config) : Bool :=
  decide (1 ≤ c.vc ∧ c.vc ≤ 32 ∧ 1 ≤ c.vr ∧ c.vr ≤ 32)

/-- The torus is larger than the viewport (rule R9). -/
def Config.torusOk (c : Config) : Bool := decide (c.vr < c.rows ∧ c.vc < c.cols)

/-- MAP_HEIGHT is in 1..65535 (rule R8). -/
def Config.mapHeightOk (c : Config) : Bool := decide (1 ≤ c.mapHeight ∧ c.mapHeight ≤ 65535)

/-- TILE_COUNT is in 1..256 (rule R8). -/
def Config.tileCountOk (c : Config) : Bool := decide (1 ≤ c.tileCount ∧ c.tileCount ≤ 256)

/-- SPR8_COUNT and SPR16_COUNT are in 0..128 (rule R8). -/
def Config.spriteCountsOk (c : Config) : Bool := decide (c.spr8Count ≤ 128 ∧ c.spr16Count ≤ 128)

/-- OBJ_CAP is in 1..255 (rule R8). -/
def Config.objCapOk (c : Config) : Bool := decide (1 ≤ c.objCap ∧ c.objCap ≤ 255)

/-- The read-only memories have the sizes of rule R80. -/
def Config.romSizesOk (c : Config) : Bool :=
  decide (c.tileRom.length = 8 * c.tileCount ∧ c.spr8Rom.length = 16 * c.spr8Count ∧
    c.spr16Rom.length = 64 * c.spr16Count ∧ c.mapRom.length = c.mapHeight * c.cols)

/-- Rule R9: a configuration that fails this describes no hardware, and the machine refuses to step it (rule R272). -/
def Config.wf (c : Config) : Bool :=
  c.geometryOk && c.torusOk && c.mapHeightOk && c.tileCountOk && c.spriteCountsOk && c.objCapOk && c.romSizesOk

/-- A command with an operand that rule R111 allows: ARG = 0 for a `none` command, s < VR for a `strip` command. -/
def Instr.wellFormed (c : Config) : Instr → Bool
  | .nop arg => arg == 0
  | .pfReload arg => arg == 0
  | .pfAdjust arg => arg == 0
  | .stripClear arg => arg == 0
  | .stripBg s => decide (s.toNat < c.vr)
  | .stripSprites s => decide (s.toNat < c.vr)
  | .stripEmit s => decide (s.toNat < c.vr)
  | .renderStrip s => decide (s.toNat < c.vr)
  | .renderFrame arg => arg == 0

end Sys2Proof
end

