-- ==== Sys2Proof/Machine/Step.lean ====
section
/-! DEFINITION. One step: one turn of one agent. -/

namespace Sys2Proof.Machine

open Sys2Proof

/-- One step. A configuration that is not well-formed is refused before the first step (rules R9, R272). -/
def step (s : State) : Host.Outcome State Fault Refusal :=
  if s.cfg.wf then s.moveNext else .refused .configNotWellFormed

/-- `s` with the command word accepted, so that the next step runs it (log entry 10). -/
def State.withFetchWord (s : State) (nbits w : Nat) : State := s.loadCommand (tableWord nbits w)

end Sys2Proof.Machine
end

