-- ==== Sys2Proof/Safety.lean ====
section
/-! DEFINITION. The terms claims use: the machine's invariant, the playfield's consistency (rule R162), the world bitmap
(rule R222), the pixel rule (rule R184), what a render command needs, and the end of a run (rule R315). -/

namespace Sys2Proof.Machine

open Sys2Proof

/-- What every step keeps. -/
structure State.Inv (s : State) : Prop where
  /-- The memories are in canonical form. -/
  pfWf : s.pf.wf = true
  objWf : s.obj.wf = true
  stripWf : s.strip.wf = true
  /-- Only cells that exist are listed (rules R50, R53, R54). -/
  pfRange : ∀ a, (s.pf.read a).isSome → a < s.cfg.rows * s.cfg.cols
  objRange : ∀ a, (s.obj.read a).isSome → a < 4 * s.cfg.objCap ∧ a % 4 ≠ 3
  stripRange : ∀ x, (s.strip.read x).isSome → x < s.cfg.width
  /-- PF_VALID = 1 means that every playfield cell was written (rule R50). -/
  pfLoaded : s.status.pfValid = true → ∀ a, a < s.cfg.rows * s.cfg.cols → (s.pf.read a).isSome
  /-- STRIP_VALID = 1 means that every strip byte was written (rule R54). -/
  stripLoaded : s.status.stripValid = true → ∀ x, x < s.cfg.width → (s.strip.read x).isSome
  /-- OBJ_COUNT is at most OBJ_CAP (rule R36). -/
  objCountLe : s.objCount.toNat ≤ s.cfg.objCap
  /-- DONE and FAULT are never 1 together (rule R285). -/
  oneEnd : ¬(s.status.done = true ∧ s.status.fault = true)
  /-- Both are 0 while a command runs (rule R285). -/
  busyClear : s.busy = true → s.status.done = false ∧ s.status.fault = false
  /-- The strip in progress exists (rules R48, R54). -/
  sequencerOk : ∀ q, s.sequencer = some q → q.strip < s.cfg.vr
  /-- Every page has an index below VR and W bytes (rule R57). -/
  pagesOk : ∀ p ∈ s.pages, p.index < s.cfg.vr ∧ p.bytes.length = s.cfg.width
  /-- A pending FAULT left the ghost mark (rule R281). -/
  faultMarked : s.status.fault = true → s.faulted = true
  /-- No fault since reset: the record is 0 (rules R37 to R39). -/
  recordClear : s.faulted = false → s.faultCode = 0 ∧ s.faultInfo = 0 ∧ s.faultLoc = 0
  /-- A fault since reset: FAULT_CODE[7:4] is 0 and the code is 1 to 6 (rules R37, R271). -/
  recordCode : s.faulted = true → s.faultCode.extractLsb' 4 4 = 0 ∧
    1 ≤ (s.faultCode.extractLsb' 0 4).toNat ∧ (s.faultCode.extractLsb' 0 4).toNat ≤ 6

/-- Consistent(t) (rule R162). -/
def State.Consistent (s : State) (t : Nat) : Prop :=
  ∀ k c, k < s.cfg.rows → c < s.cfg.cols →
    s.cell ((t + k) % s.cfg.rows) c = mapByte s.cfg ((t + k) % s.cfg.mapHeight) c

/-- World(X, Y) (rule R222). -/
def world (c : Config) (x y : Nat) : Bool :=
  (tileByte c (mapByte c (y / 8 % c.mapHeight) (x / 8 % c.cols)) (x % 8)).getLsbD (y % 8)

/-- Every cell that strip `k` samples holds a tile index below TILE_COUNT (rule R216). -/
def State.bgReady (s : State) (k : Nat) : Prop :=
  ∀ x, x < s.cfg.width → ∀ rc ∈ s.sampledAt k x, tileInRange s.cfg (s.cell rc.1 rc.2) = true

/-- Entry `j` was written, and if it is visible on strip `k` its sprite index is in range (rules R60, R188). -/
def State.entryReady (s : State) (k j : Nat) : Prop :=
  ∃ o, s.objEntry j = some o ∧ (visible s.cfg o k = true → spriteInRange s.cfg o.t = true)

/-- Every live entry is ready for strip `k` (rule R188). -/
def State.spritesReady (s : State) (k : Nat) : Prop := ∀ j, j < s.objCount.toNat → s.entryReady k j

/-- The sprite pixel (i, j) of a type byte: its mask and pattern bits (rule R181). -/
def spritePixel (c : Config) (t : Byte) (i j : Nat) : Bool × Bool :=
  ((maskByte c t i (j / 8)).getLsbD (j % 8), (patternByte c t i (j / 8)).getLsbD (j % 8))

/-- Entry `o` covers screen pixel (x, y) of the display (rules R181, R183). -/
def covers (c : Config) (o : Obj) (x y : Nat) : Bool :=
  decide (o.x.toNat ≤ x ∧ x < o.x.toNat + sprSize o.t ∧ x < c.width ∧ o.y.toNat ≤ y ∧ y < o.y.toNat + sprSize o.t)

/-- The pixel rule (rule R184): what drawing `o` makes of the pixel (x, y) that was `old`. -/
def pixelOver (c : Config) (o : Obj) (x y : Nat) (old : Bool) : Bool :=
  if covers c o x y then
    (old && (spritePixel c o.t (x - o.x.toNat) (y - o.y.toNat)).1) ||
      (spritePixel c o.t (x - o.x.toNat) (y - o.y.toNat)).2
  else old

/-- The pixel (x, y) after the entries `ks` are drawn over it in that order (rules R180, R189). -/
def State.pixelAfter (s : State) (x y : Nat) (ks : List Nat) (old : Bool) : Bool :=
  ks.foldl (fun v k => match s.objEntry k with
    | some o => pixelOver s.cfg o x y v
    | none => v) old

/-- The W bytes that RENDER_STRIP emits for strip `k` (rule R220). -/
def State.picture (s : State) (k : Nat) : List Byte := ((s.fillStrip (s.bgByte k)).drawAll k).stripBytes

/-- The page of strip `k` (rule R220). -/
def State.pageOf (s : State) (k : Nat) : Page := { index := k, bytes := s.picture k }

/-- `s` after a fault with this opcode, code and record (rules R271, R276) and the ghost mark (rule R281), written out. -/
def State.faultTaken (s : State) (op code : Byte) (info loc : Word) : State :=
  { s with
    faultCode := op ++ code
    faultInfo := info
    faultLoc := loc
    status := { s.status with fault := true }
    sequencer := none
    faulted := true }

/-- The run is over (rule R315): the host made its last access and no command is in flight, so the sink took every
page. -/
def State.ended (s : State) : Prop := s.script = [] ∧ s.busy = false

/-- A successful end (rule R315): over, with neither FAULT nor the ghost fault mark set. -/
def State.endedWell (s : State) : Prop := s.ended ∧ s.status.fault = false ∧ s.faulted = false

end Sys2Proof.Machine
end

