-- ==== Sys2Proof/Certificates/Slice0/Obligations.lean ====
section
/-! DEFINITION. The statements for the provers, in the order of OBLIGATIONS.json. -/

open Sys2Proof Sys2Proof.Machine

/-! ### Encoding and dispatch -/

/-- The encoder and the decoder agree on every command and every ARG (rules R110, R112, R116). -/
def Obligations.DecodeOfEncode : Prop := ∀ i : Instr, decode (encode i) = .ok i

/-- A word that decodes is the encoding of what it decodes to: no bit is dropped (rules R110, R116). -/
def Obligations.EncodeOfDecode : Prop := ∀ (w : Word) (i : Instr), decode w = .ok i → encode i = w

/-- Exactly the words whose OP is outside the opcode map are no command (rules R113, R116). -/
def Obligations.IllegalOutsideOpcodeMap : Prop :=
  ∀ w : Word, decode w = .error (.illegalCmd w) ↔
    wordOp w ∉ ([0x00, 0x01, 0x02, 0x10, 0x11, 0x12, 0x13, 0x20, 0x21] : List Byte)

/-- Words written out from the opcode map (rule R112) decode to their commands, ARG kept (rules R112, R114). -/
def Obligations.SampleWordsDecode : Prop :=
  decode 0b0000000000000000 = .ok (.nop 0x00) ∧
  decode 0b0000000100000101 = .ok (.pfReload 0x05) ∧
  decode 0b0000001000000000 = .ok (.pfAdjust 0x00) ∧
  decode 0b0001000000000000 = .ok (.stripClear 0x00) ∧
  decode 0b0001000100000011 = .ok (.stripBg 0x03) ∧
  decode 0b0001001000000111 = .ok (.stripSprites 0x07) ∧
  decode 0b0001001100001000 = .ok (.stripEmit 0x08) ∧
  decode 0b0010000000000111 = .ok (.renderStrip 0x07) ∧
  decode 0b0010000100000000 = .ok (.renderFrame 0x00) ∧
  decode 0b0000001111111111 = .error (.illegalCmd 0x03FF)

/-- When the sequencer holds the word of command `i` and it is the engine's turn, the step is `exec i`: with no turn
listed, or with an engine turn at the head of the list, which is taken off (rule R255). Whose turn it is, is the model's
schedule (log entry 5). -/
def Obligations.StepRunsDecodedCommand : Prop :=
  ∀ (s : State) (q : Running) (i : Instr),
    s.cfg.wf = true → s.sequencer = some q → decode q.word = .ok i →
    (s.turns = [] → step s = exec i s) ∧
    (∀ rest, s.turns = .engine :: rest → step s = exec i (s.setTurns rest))

/-- An accepted word with an illegal OP faults ILLEGAL_CMD and has no other effect (rule R273), on each of the two engine
turns of StepRunsDecodedCommand: no turn listed, or an engine turn at the head of the list. Whose turn it is, is the
model's schedule (log entry 5). -/
def Obligations.IllegalWordFaults : Prop :=
  ∀ (s : State) (q : Running),
    s.cfg.wf = true → s.sequencer = some q →
    wordOp q.word ∉ ([0x00, 0x01, 0x02, 0x10, 0x11, 0x12, 0x13, 0x20, 0x21] : List Byte) →
    (s.turns = [] → step s = .next (s.faultTaken (wordOp q.word) 0x01 q.word 0x0000)) ∧
    (∀ rest, s.turns = .engine :: rest →
      step s = .next ((s.setTurns rest).faultTaken (wordOp q.word) 0x01 q.word 0x0000))

/-- A command with an operand rule R111 does not allow faults BAD_OPERAND in every state, whatever PF_VALID and
STRIP_VALID are, and has no other effect (rule R274). -/
def Obligations.BadOperandFaults : Prop :=
  ∀ (i : Instr) (s : State), i.wellFormed s.cfg = false →
    exec i s = .next (s.faultTaken i.op 0x02 (encode i) 0x0000)

/-- The state preconditions, checked after the operand (rule R275): four commands need PF_VALID, two need STRIP_VALID,
and three need nothing. -/
def Obligations.StatePreconditions : Prop :=
  ∀ (i : Instr) (s : State), i.wellFormed s.cfg = true →
    match i with
    | .pfAdjust _ | .stripBg _ | .renderStrip _ | .renderFrame _ =>
      s.status.pfValid = false → exec i s = .next (s.faultTaken i.op 0x03 (encode i) 0x0000)
    | .stripSprites _ | .stripEmit _ =>
      s.status.stripValid = false → exec i s = .next (s.faultTaken i.op 0x04 (encode i) 0x0000)
    | .nop _ | .pfReload _ | .stripClear _ =>
      ∃ t, exec i s = .next t ∧ t.status.done = true ∧ t.status.fault = s.status.fault ∧ t.faultCode = s.faultCode

/-! ### The invariant and rules over every step -/

/-- The reset state of every instance meets the invariant, the reference instance among them (log entry 1). -/
def Obligations.ResetMeetsInvariant : Prop := (∀ c : Config, (State.powerOn c).Inv) ∧ State.reset.Inv

/-- Every step keeps the invariant. -/
def Obligations.StepKeepsInvariant : Prop := ∀ s t : State, s.Inv → step s = .next t → t.Inv

/-- No step, a host access and a reset among them, changes the read-only memories or the parameters (rule R148). -/
def Obligations.ConfigurationNeverChanges : Prop := ∀ s t : State, step s = .next t → t.cfg = s.cfg

/-- Only PF_RELOAD, PF_ADJUST and reset change the playfield or PF_ORIGIN (rules R40, R50): every turn of the host and of
the sink leaves both, also while one of the two commands is latched, and so does the engine's turn on any other word. -/
def Obligations.PlayfieldOnlyRefreshed : Prop :=
  ∀ s t : State, step s = .next t → s.nextTurn ≠ .reset →
    (s.nextTurn = .engine → ∀ q, s.sequencer = some q → wordOp q.word ≠ 0x01 ∧ wordOp q.word ≠ 0x02) →
    t.pf = s.pf ∧ t.pfOrigin = s.pfOrigin

/-- Only reset clears PF_VALID and STRIP_VALID; only the engine on PF_RELOAD sets PF_VALID, and only the engine on
STRIP_CLEAR, STRIP_BG, RENDER_STRIP or RENDER_FRAME sets STRIP_VALID (rules R32, R211, R216, R220). -/
def Obligations.ValidBitsSetAndCleared : Prop :=
  ∀ s t : State, step s = .next t → s.nextTurn ≠ .reset →
    (s.status.pfValid = true → t.status.pfValid = true) ∧
    (s.status.stripValid = true → t.status.stripValid = true) ∧
    (s.status.pfValid = false → t.status.pfValid = true →
      s.nextTurn = .engine ∧ ∃ q, s.sequencer = some q ∧ wordOp q.word = 0x01) ∧
    (s.status.stripValid = false → t.status.stripValid = true →
      s.nextTurn = .engine ∧ ∃ q, s.sequencer = some q ∧ wordOp q.word ∈ ([0x10, 0x11, 0x20, 0x21] : List Byte))

/-- Outside reset, each of these has one cause (rules R32, R49, R58, R281, R294). The fault record changes, and FAULT goes
from 0 to 1, only where a running command ends in a fault, which the record names; the ghost mark stays. DONE goes from 0
to 1 only where a running command completes. WR_IGNORED goes from 0 to 1 only where a host write is dropped. FAULT and
WR_IGNORED go from 1 to 0 only by a STATUS write with their bit set, DONE by such a write or by an accepted command. -/
def Obligations.FlagsAndFaultRecordCauses : Prop :=
  ∀ s t : State, step s = .next t → s.nextTurn ≠ .reset →
    let fell (bit : Nat) := s.nextTurn = .host ∧ ∃ v rest, s.script = .write 0x001 v :: rest ∧ v.getLsbD bit = true
    (s.faulted = true → t.faulted = true) ∧
    ((t.faultCode = s.faultCode ∧ t.faultInfo = s.faultInfo ∧ t.faultLoc = s.faultLoc) ∨
      (s.nextTurn = .engine ∧ s.busy = true ∧ t.busy = false ∧ t.status.fault = true ∧ t.faulted = true)) ∧
    (s.status.fault = false → t.status.fault = true →
      s.nextTurn = .engine ∧ t.busy = false ∧ t.status.done = s.status.done ∧ t.faulted = true ∧
        ∃ q, s.sequencer = some q ∧ t.faultCode.extractLsb' 8 8 = wordOp q.word) ∧
    (s.status.done = false → t.status.done = true →
      s.nextTurn = .engine ∧ s.busy = true ∧ t.busy = false ∧ t.status.fault = s.status.fault ∧
        t.faultCode = s.faultCode ∧ t.faultInfo = s.faultInfo ∧ t.faultLoc = s.faultLoc) ∧
    (s.status.wrIgnored = false → t.status.wrIgnored = true →
      s.nextTurn = .host ∧ ∃ a v rest, s.script = .write a v :: rest ∧
        (a = 0x002 ∧ s.status.fault = true ∨
          s.busy = true ∧ (a = 0x000 ∨ a = 0x002 ∨ a = 0x003 ∨ a = 0x004 ∨ a = 0x005 ∨
            (0x400 ≤ a.toNat ∧ a.toNat < 0x400 + 4 * s.cfg.objCap ∧ a.toNat % 4 ≠ 3)))) ∧
    (s.status.fault = true → t.status.fault = false → fell 2) ∧
    (s.status.wrIgnored = true → t.status.wrIgnored = false → fell 5) ∧
    (s.status.done = true → t.status.done = false →
      fell 1 ∨ (s.nextTurn = .host ∧ s.busy = false ∧ t.busy = true))

/-- Outside reset, PAGES only grows at its end, and only while a command runs (rules R57, R291). -/
def Obligations.PagesOnlyAppended : Prop :=
  ∀ s t : State, step s = .next t → s.nextTurn ≠ .reset →
    (∃ ps, t.pages = s.pages ++ ps) ∧ (s.busy = false → t.pages = s.pages)

/-- While a command runs, no turn but reset changes what it reads: CTRL, the scroll position, OBJ_COUNT and the object
list stay as they were accepted (rules R96, R102). -/
def Obligations.InputsHeldWhileBusy : Prop :=
  ∀ s t : State, step s = .next t → s.busy = true → s.nextTurn ≠ .reset →
    t.ctrl = s.ctrl ∧ t.scrollX = s.scrollX ∧ t.scrollY = s.scrollY ∧ t.objCount = s.objCount ∧ t.obj = s.obj

/-- The frame common to all nine commands: whatever next state a command gives, it leaves the configuration, CTRL, the
scroll registers, OBJ_COUNT, the object list, WR_IGNORED and the host's side as they were (rules R49, R255). -/
def Obligations.CommandsKeepHostState : Prop :=
  ∀ (i : Instr) (s t : State), exec i s = .next t →
    t.cfg = s.cfg ∧ t.ctrl = s.ctrl ∧ t.scrollX = s.scrollX ∧ t.scrollY = s.scrollY ∧ t.objCount = s.objCount ∧
      t.obj = s.obj ∧ t.status.wrIgnored = s.status.wrIgnored ∧ t.script = s.script ∧ t.turns = s.turns ∧
      t.replies = s.replies ∧ t.resets = s.resets

/-- An accepted command whose pages the sink takes ends in the engine's turn, in exactly one of two ways, DONE or FAULT;
the only other end is the model-only fault UNWRITTEN_OBJ, and no command is refused (rules R60, R256). Whose turn it is and
the sink's room are the model's own (log entries 5 and 8). -/
def Obligations.CommandEndsOneWay : Prop :=
  ∀ s : State, s.cfg.wf = true → s.Inv → s.nextTurn = .engine → s.busy = true → s.sinkRoom = none →
    (∃ t, step s = .next t ∧ t.busy = false ∧ t.status.fault = !t.status.done) ∨
      ∃ k, step s = .fault (.unwrittenObj k)

/-- A configuration that is not well-formed is refused before the first step, and nothing else is ever refused
(rules R9, R272). -/
def Obligations.IllFormedConfigurationRefused : Prop :=
  ∀ s : State, (s.cfg.wf = false → step s = .refused .configNotWellFormed) ∧
    (s.cfg.wf = true → ∀ r, step s ≠ .refused r)

/-! ### Reset -/

/-- A reset event, at any time and while BUSY too, gives every register and flag its value of rule R59, empties PAGES,
clears every written flag, and leaves the configuration (rules R59, R301). That a written flag is a listed address is the
model's (log entry 2), that PF and STRIP list nothing after reset is its choice (log entry 6), and so is the list of turns
that the reset comes from (log entry 5). -/
def Obligations.ResetEventValues : Prop :=
  ∀ s : State, s.cfg.wf = true → s.nextTurn = .reset →
    ∃ t, step s = .next t ∧ t.cfg = s.cfg ∧ t.ctrlWord = 0x0003 ∧ t.statusWord = 0x0000 ∧ t.irq = false ∧
      t.scrollX = 0x0000 ∧ t.scrollY = 0x0000 ∧ t.objCount = 0x00 ∧ t.faultCode = 0x0000 ∧ t.faultInfo = 0x0000 ∧
      t.faultLoc = 0x0000 ∧ t.pfOrigin = 0 ∧ t.sequencer = none ∧ t.pages = [] ∧ t.faulted = false ∧
      ∀ a, t.pf.read a = none ∧ t.obj.read a = none ∧ t.strip.read a = none

/-- What the host reads right after reset, for every well-formed configuration (rules R30, R59): every register at its
reset value or its hardwired value, and 0 in every playfield and strip word. -/
def Obligations.HostReadsAfterReset : Prop :=
  ∀ c : Config, c.wf = true →
    let s := State.powerOn c
    s.hostRead 0x000 = 0x0003 ∧ s.hostRead 0x001 = 0x0000 ∧ s.hostRead 0x002 = 0x0000 ∧ s.hostRead 0x003 = 0x0000 ∧
    s.hostRead 0x004 = 0x0000 ∧ s.hostRead 0x005 = 0x0000 ∧ s.hostRead 0x006 = 0x0000 ∧ s.hostRead 0x007 = 0x0000 ∧
    s.hostRead 0x008 = 0x0000 ∧ s.hostRead 0x009 = 0x0000 ∧
    (s.hostRead 0x00A).toNat = 256 * c.vr + c.vc ∧ (s.hostRead 0x00B).toNat = c.objCap ∧
    (s.hostRead 0x00C).toNat = c.mapHeight ∧ (s.hostRead 0x00D).toNat = c.tileCount ∧
    (s.hostRead 0x00E).toNat = 256 * c.spr16Count + c.spr8Count ∧ s.hostRead 0x00F = 0x0000 ∧
    ∀ a : HostAddr, 0x800 ≤ a.toNat → s.hostRead a = 0x0000

/-! ### The host interface -/

/-- A turn is one atomic event of one agent. The host's: a read hands back `HostRead(a)` and changes nothing else, a write
takes `HostWrite(a, v)` (rules R90, R91, R250), WAIT reads STATUS once and goes on while BUSY is 1 (rule R119). The idle
engine's: nothing (rule R293). The sink's: how many pages it takes before it stalls (rule R291). Whose turn it is, the
host's script and the list of values handed back are the model's own (log entry 5), and so is `sinkRoom` (log entry 8). -/
def Obligations.EachTurnIsOneEvent : Prop :=
  ∀ s : State, s.cfg.wf = true →
    let u := s.setTurns s.turns.tail
    (s.nextTurn = .host →
      (s.script = [] → step s = .next u) ∧
      (∀ a rest, s.script = .read a :: rest →
        step s = .next { u with script := rest, replies := s.replies ++ [s.hostRead a] }) ∧
      (∀ a v rest, s.script = .write a v :: rest → step s = .next ((u.setScript rest).hostWrite a v)) ∧
      (∀ rest, s.script = .wait :: rest →
        step s = .next { u with
          script := if s.busy then .wait :: rest else rest
          replies := s.replies ++ [s.hostRead 0x001] })) ∧
    (s.nextTurn = .engine → s.busy = false → step s = .next u) ∧
    (∀ room, s.nextTurn = .sink room → step s = .next { u with sinkRoom := room })

/-- The five hardwired registers read the configuration, and writes to them do nothing (rules R41 to R45). -/
def Obligations.HardwiredRegisters : Prop :=
  ∀ s : State, s.cfg.wf = true →
    (s.hostRead 0x00A).toNat = 256 * s.cfg.vr + s.cfg.vc ∧
    (s.hostRead 0x00B).toNat = s.cfg.objCap ∧
    (s.hostRead 0x00C).toNat = s.cfg.mapHeight ∧
    (s.hostRead 0x00D).toNat = s.cfg.tileCount ∧
    (s.hostRead 0x00E).toNat = 256 * s.cfg.spr16Count + s.cfg.spr8Count ∧
    ∀ (a : HostAddr) (v : Word), 0x00A ≤ a.toNat → a.toNat ≤ 0x00E → s.hostWrite a v = s

/-- The IRQ line is a level, the rule's formula at every state, and STATUS shows it in bit 6 (rule R56) beside the flags in
bits 0 to 5; bits 15:7 read 0. -/
def Obligations.StatusAndIrqRead : Prop :=
  ∀ s : State,
    s.irq = ((s.status.done && s.ctrl.doneIe) || (s.status.fault && s.ctrl.faultIe)) ∧
    (s.hostRead 0x001).getLsbD 0 = s.busy ∧ (s.hostRead 0x001).getLsbD 1 = s.status.done ∧
    (s.hostRead 0x001).getLsbD 2 = s.status.fault ∧ (s.hostRead 0x001).getLsbD 3 = s.status.pfValid ∧
    (s.hostRead 0x001).getLsbD 4 = s.status.stripValid ∧ (s.hostRead 0x001).getLsbD 5 = s.status.wrIgnored ∧
    (s.hostRead 0x001).getLsbD 6 = s.irq ∧ ∀ n, 7 ≤ n → (s.hostRead 0x001).getLsbD n = false

/-- The playfield window (rule R51): the cell, or 0 while BUSY or before the first load; writes are ignored; the words
past the last cell are unmapped. -/
def Obligations.PlayfieldWindow : Prop :=
  ∀ (s : State) (a : HostAddr) (v : Word), s.cfg.wf = true → 0x800 ≤ a.toNat → a.toNat < 0x1000 →
    s.hostWrite a v = s ∧
    (∀ r c, r < s.cfg.rows → c < s.cfg.cols → a.toNat = 0x800 + (r * s.cfg.cols + c) →
      s.hostRead a = if s.busy = true ∨ s.status.pfValid = false then 0x0000 else (s.cell r c).setWidth 16) ∧
    (0x800 + s.cfg.rows * s.cfg.cols ≤ a.toNat → s.hostRead a = 0x0000)

/-- The strip window (rule R55): the byte, or 0 while BUSY or before the first clear or fill; writes are ignored; the
words past the last byte are unmapped. -/
def Obligations.StripWindow : Prop :=
  ∀ (s : State) (a : HostAddr) (v : Word), s.cfg.wf = true → 0x1000 ≤ a.toNat →
    s.hostWrite a v = s ∧
    (∀ x, x < s.cfg.width → a.toNat = 0x1000 + x →
      s.hostRead a = if s.busy = true ∨ s.status.stripValid = false then 0x0000 else (s.stripByte x).setWidth 16) ∧
    (0x1000 + s.cfg.width ≤ a.toNat → s.hostRead a = 0x0000)

/-- The object-list window (rule R53): a field word stores bits 7:0 and reads back zero-extended; while BUSY it reads 0
and a write is dropped with WR_IGNORED; the reserved word and the words past the last entry do nothing. -/
def Obligations.ObjectWindow : Prop :=
  ∀ (s : State) (a : HostAddr) (v : Word) (k f : Nat), s.cfg.wf = true → f < 4 →
    a.toNat = 0x400 + 4 * k + f → a.toNat < 0x800 →
    (k < s.cfg.objCap → f < 3 → s.busy = false →
      s.hostWrite a v = { s with obj := s.obj.write (4 * k + f) (v.extractLsb' 0 8) } ∧
      (∀ b, s.obj.read (4 * k + f) = some b → s.hostRead a = b.setWidth 16) ∧
      (s.hostWrite a v).hostRead a = (v.extractLsb' 0 8).setWidth 16) ∧
    (k < s.cfg.objCap → f < 3 → s.busy = true →
      s.hostWrite a v = { s with status := { s.status with wrIgnored := true } } ∧ s.hostRead a = 0x0000) ∧
    (s.cfg.objCap ≤ k ∨ f = 3 → s.hostWrite a v = s ∧ s.hostRead a = 0x0000)

/-- Unmapped addresses read 0, and a write to one changes nothing, WR_IGNORED included (rule R92). -/
def Obligations.UnmappedAddresses : Prop :=
  ∀ (s : State) (a : HostAddr) (v : Word), s.cfg.wf = true →
    (0x010 ≤ a.toNat ∧ a.toNat ≤ 0x3FF ∨ 0x400 + 4 * s.cfg.objCap ≤ a.toNat ∧ a.toNat ≤ 0x7FF ∨
      0x800 + s.cfg.rows * s.cfg.cols ≤ a.toNat ∧ a.toNat ≤ 0xFFF ∨ 0x1000 + s.cfg.width ≤ a.toNat) →
    s.hostRead a = 0x0000 ∧ s.hostWrite a v = s

/-- What the host reads of the data registers in any state (rules R34 to R40, R251): each at its own address, OBJ_COUNT
and PF_ORIGIN zero-extended, CMD as 0. Writes to the read-only and reserved registers 0x006 to 0x00F change nothing, and
reserved bits read 0 (rule R46). -/
def Obligations.RegisterReads : Prop :=
  ∀ (s : State) (a : HostAddr) (v : Word),
    (s.hostRead 0x002 = 0x0000 ∧ s.hostRead 0x003 = s.scrollX ∧ s.hostRead 0x004 = s.scrollY ∧
      s.hostRead 0x005 = s.objCount.setWidth 16 ∧ s.hostRead 0x006 = s.faultCode ∧ s.hostRead 0x007 = s.faultInfo ∧
      s.hostRead 0x008 = s.faultLoc ∧ s.hostRead 0x009 = s.pfOrigin.setWidth 16 ∧ s.hostRead 0x00F = 0x0000) ∧
    (0x006 ≤ a.toNat → a.toNat ≤ 0x00F → s.hostWrite a v = s) ∧
    (∀ n, 4 ≤ n → (s.hostRead 0x000).getLsbD n = false) ∧ (∀ n, 7 ≤ n → (s.hostRead 0x001).getLsbD n = false) ∧
    (∀ n, 8 ≤ n → (s.hostRead 0x005).getLsbD n = false) ∧ (∀ n, 13 ≤ n → (s.hostRead 0x009).getLsbD n = false)

/-- While BUSY = 1, a write to any address but STATUS changes WR_IGNORED at most: a writable location sets it, every
other address does nothing (rules R252, R294, R309). -/
def Obligations.BusyWritesDropped : Prop :=
  ∀ (s : State) (a : HostAddr) (v : Word), s.busy = true → a ≠ 0x001 →
    s.hostWrite a v =
      if a = 0x000 ∨ a = 0x002 ∨ a = 0x003 ∨ a = 0x004 ∨ a = 0x005 ∨
          (0x400 ≤ a.toNat ∧ a.toNat < 0x400 + 4 * s.cfg.objCap ∧ a.toNat % 4 ≠ 3) then
        { s with status := { s.status with wrIgnored := true } }
      else s

/-- A CMD write while BUSY = 0 (rule R253): with FAULT = 1 it is dropped, otherwise the word is latched undecoded, BUSY
is 1 and DONE is 0. -/
def Obligations.CommandAcceptance : Prop :=
  ∀ (s : State) (w : Word), s.busy = false →
    (s.status.fault = true → s.hostWrite 0x002 w = { s with status := { s.status with wrIgnored := true } }) ∧
    (s.status.fault = false →
      s.hostWrite 0x002 w =
        { s with sequencer := some { word := w, strip := 0 }, status := { s.status with done := false } } ∧
      (s.hostWrite 0x002 w).busy = true)

/-- While FAULT = 1 the engine is idle, CMD writes are dropped, and CTRL, the scroll registers, OBJ_COUNT and the
object fields are still written (rule R282). -/
def Obligations.StickyFault : Prop :=
  ∀ (s : State) (v : Word), s.Inv → s.status.fault = true →
    s.busy = false ∧
    s.hostWrite 0x002 v = { s with status := { s.status with wrIgnored := true } } ∧
    s.hostWrite 0x000 v = { s with ctrl := ctrlOfWord v } ∧
    s.hostWrite 0x003 v = { s with scrollX := v } ∧
    s.hostWrite 0x004 v = { s with scrollY := v } ∧
    s.hostWrite 0x005 v = { s with objCount := objCountOf s.cfg v } ∧
    ∀ (a : HostAddr) (k f : Nat), a.toNat = 0x400 + 4 * k + f → k < s.cfg.objCap → f < 3 →
      s.hostWrite a v = { s with obj := s.obj.write (4 * k + f) (v.extractLsb' 0 8) }

/-- A STATUS write (rule R257), BUSY or not: DONE, FAULT and WR_IGNORED are cleared where the value has a 1 and nothing
else changes, IRQ follows at once, a write of 0 does nothing, and while a command runs only WR_IGNORED can change. -/
def Obligations.StatusWriteClears : Prop :=
  ∀ (s : State) (v : Word),
    s.hostWrite 0x001 v =
      { s with status := { s.status with
          done := if v.getLsbD 1 then false else s.status.done
          fault := if v.getLsbD 2 then false else s.status.fault
          wrIgnored := if v.getLsbD 5 then false else s.status.wrIgnored } } ∧
    (s.hostWrite 0x001 v).irq =
      ((s.status.done && !v.getLsbD 1 && s.ctrl.doneIe) || (s.status.fault && !v.getLsbD 2 && s.ctrl.faultIe)) ∧
    s.hostWrite 0x001 0x0000 = s ∧
    (s.Inv → s.busy = true →
      s.hostWrite 0x001 v =
        { s with status := { s.status with wrIgnored := if v.getLsbD 5 then false else s.status.wrIgnored } })

/-- Register writes while BUSY = 0 (rules R258, R259, R260): CTRL takes bits 3:0 and moves IRQ at once, a scroll
register takes all 16 bits and refreshes nothing, OBJ_COUNT takes min(v[7:0], OBJ_CAP). -/
def Obligations.IdleRegisterWrites : Prop :=
  ∀ (s : State) (v : Word), s.cfg.wf = true → s.busy = false →
    (s.hostWrite 0x000 v = { s with ctrl :=
        { fineXEn := v.getLsbD 0, fineYEn := v.getLsbD 1, doneIe := v.getLsbD 2, faultIe := v.getLsbD 3 } } ∧
      (s.hostWrite 0x000 v).irq =
        ((s.status.done && v.getLsbD 2) || (s.status.fault && v.getLsbD 3)) ∧
      (∀ n, n < 4 → ((s.hostWrite 0x000 v).hostRead 0x000).getLsbD n = v.getLsbD n)) ∧
    s.hostWrite 0x003 v = { s with scrollX := v } ∧
    s.hostWrite 0x004 v = { s with scrollY := v } ∧
    ∃ n : Byte, n.toNat = min (v.toNat % 256) s.cfg.objCap ∧ s.hostWrite 0x005 v = { s with objCount := n }

/-! ### NOP and the playfield -/

/-- NOP (rule R254), word 0x0000: with ARG = 0 it changes BUSY and DONE alone, with another ARG it faults
BAD_OPERAND. -/
def Obligations.NopCompletes : Prop :=
  encode (.nop 0x00) = 0x0000 ∧ ∀ (s : State) (arg : Byte),
    (arg = 0x00 →
      exec (.nop arg) s = .next { s with sequencer := none, status := { s.status with done := true } }) ∧
    (arg ≠ 0x00 → exec (.nop arg) s = .next (s.faultTaken 0x00 0x02 (encode (.nop arg)) 0x0000))

/-- PF_RELOAD, word 0x0100, completes in every state (rule R164): each logical row k gets source row (tY + k) mod MAP_HEIGHT,
PF_ORIGIN, PF_VALID and DONE are set, and nothing else changes; another ARG faults BAD_OPERAND. -/
def Obligations.PfReloadCompletes : Prop :=
  encode (.pfReload 0x00) = 0x0100 ∧ ∀ (s : State) (arg : Byte),
    (arg = 0x00 → ∃ t, exec (.pfReload arg) s = .next t ∧
      t = { s with
        pf := t.pf
        pfOrigin := BitVec.ofNat 13 (s.scrollY.toNat / 8)
        sequencer := none
        status := { s.status with pfValid := true, done := true } } ∧
      (∀ k c, k < s.cfg.rows → c < s.cfg.cols →
        t.cell ((s.scrollY.toNat / 8 + k) % s.cfg.rows) c =
          memRead s.cfg .mapRom ((s.scrollY.toNat / 8 + k) % s.cfg.mapHeight * s.cfg.cols + c)) ∧
      (∀ a, s.cfg.rows * s.cfg.cols ≤ a → t.pf.read a = s.pf.read a)) ∧
    (arg ≠ 0x00 → exec (.pfReload arg) s = .next (s.faultTaken 0x01 0x02 (encode (.pfReload arg)) 0x0000))

/-- After a PF_RELOAD completes, Consistent(SCROLL_Y >> 3) holds (rule R165). -/
def Obligations.ReloadMakesConsistent : Prop :=
  ∀ s : State, ∃ t, exec (.pfReload 0x00) s = .next t ∧ t.Consistent (s.scrollY.toNat / 8)

/-- PF_ADJUST completes where PF_VALID = 1 (rule R166): it loads logical rows ROWS-2 and ROWS-1, leaves every other
cell, sets PF_ORIGIN and DONE, and changes nothing else. -/
def Obligations.PfAdjustCompletes : Prop :=
  ∀ s : State, s.status.pfValid = true →
    ∃ t, exec (.pfAdjust 0x00) s = .next t ∧
      t = { s with
        pf := t.pf
        pfOrigin := BitVec.ofNat 13 (s.scrollY.toNat / 8)
        sequencer := none
        status := { s.status with done := true } } ∧
      (∀ k c, k = s.cfg.rows - 2 ∨ k = s.cfg.rows - 1 → c < s.cfg.cols →
        t.cell ((s.scrollY.toNat / 8 + k) % s.cfg.rows) c =
          memRead s.cfg .mapRom ((s.scrollY.toNat / 8 + k) % s.cfg.mapHeight * s.cfg.cols + c)) ∧
      (∀ k c, k < s.cfg.rows - 2 → c < s.cfg.cols →
        t.pf.read ((s.scrollY.toNat / 8 + k) % s.cfg.rows * s.cfg.cols + c) =
          s.pf.read ((s.scrollY.toNat / 8 + k) % s.cfg.rows * s.cfg.cols + c)) ∧
      (∀ a, s.cfg.rows * s.cfg.cols ≤ a → t.pf.read a = s.pf.read a)

/-- Incremental equals full (rule R167): from a playfield consistent at `o`, a PF_ADJUST at origin o, o + 1 or o + 2, or
at any origin where MAP_HEIGHT divides ROWS, leaves every cell as a fresh PF_RELOAD there would. -/
def Obligations.AdjustEqualsReload : Prop :=
  ∀ (s : State) (o : Nat), s.cfg.wf = true → s.status.pfValid = true → s.Consistent o →
    (∃ d, d ≤ 2 ∧ s.scrollY.toNat / 8 = o + d) ∨ s.cfg.mapHeight ∣ s.cfg.rows →
    ∃ t u, exec (.pfAdjust 0x00) s = .next t ∧ exec (.pfReload 0x00) s = .next u ∧
      t.Consistent (s.scrollY.toNat / 8) ∧
      ∀ r c, r < s.cfg.rows → c < s.cfg.cols → t.cell r c = u.cell r c

/-! ### The strip buffer and the background -/

/-- STRIP_CLEAR, word 0x1000, completes in every state (rule R211): W zero bytes, STRIP_VALID and DONE, nothing else;
another ARG faults BAD_OPERAND. -/
def Obligations.StripClearCompletes : Prop :=
  encode (.stripClear 0x00) = 0x1000 ∧ ∀ (s : State) (arg : Byte),
    (arg = 0x00 → ∃ t, exec (.stripClear arg) s = .next t ∧
      t = { s with
        strip := t.strip, sequencer := none, status := { s.status with stripValid := true, done := true } } ∧
      (∀ x, x < s.cfg.width → t.stripByte x = 0x00) ∧
      (∀ x, s.cfg.width ≤ x → t.strip.read x = s.strip.read x)) ∧
    (arg ≠ 0x00 → exec (.stripClear arg) s = .next (s.faultTaken 0x10 0x02 (encode (.stripClear arg)) 0x0000))

/-- STRIP_BG completes where s < VR, PF_VALID = 1 and every sampled index is in range (rule R216): every strip byte is
BgByte(s, x) as rule R215 computes it, STRIP_VALID and DONE are set, and nothing else changes. -/
def Obligations.StripBgCompletes : Prop :=
  ∀ (s : State) (k : Byte), k.toNat < s.cfg.vr → s.status.pfValid = true → s.bgReady k.toNat →
    ∃ t, exec (.stripBg k) s = .next t ∧
      t = { s with
        strip := t.strip, sequencer := none, status := { s.status with stripValid := true, done := true } } ∧
      (∀ x, x < s.cfg.width →
        let tX := s.scrollX.toNat / 8
        let tY := s.scrollY.toNat / 8
        let bXOff := if s.ctrl.fineXEn then s.scrollX.toNat % 8 else 0
        let bYOff := if s.ctrl.fineYEn then s.scrollY.toNat % 8 else 0
        let r0 := (tY + k.toNat) % s.cfg.rows
        let r1 := (r0 + 1) % s.cfg.rows
        let u := bXOff + x
        let c := (tX + u / 8) % s.cfg.cols
        let a := memRead s.cfg .tileRom (8 * (s.cell r0 c).toNat + u % 8)
        let b := memRead s.cfg .tileRom (8 * (s.cell r1 c).toNat + u % 8)
        t.stripByte x = if bYOff = 0 then a else shr8 a bYOff ||| shl8 b (8 - bYOff)) ∧
      (∀ x, s.cfg.width ≤ x → t.strip.read x = s.strip.read x)

/-- STRIP_BG faults TILE_INDEX_OOR at the first sampled cell out of range, x ascending and the current row before the
next row, with the strip index, the tile index and the cell in the record, and the strip buffer unchanged
(rules R216, R277, R280). -/
def Obligations.StripBgTileFault : Prop :=
  ∀ (s : State) (k : Byte) (x : Nat), k.toNat < s.cfg.vr → s.status.pfValid = true → x < s.cfg.width →
    (∀ x', x' < x → ∀ rc ∈ s.sampledAt k.toNat x', tileInRange s.cfg (s.cell rc.1 rc.2) = true) →
    let c := s.bgCol x
    let r0 := s.row0 k.toNat
    let r1 := s.row1 k.toNat
    (s.cfg.tileCount ≤ (s.cell r0 c).toNat →
      exec (.stripBg k) s =
        .next (s.faultTaken 0x11 0x05 (k ++ s.cell r0 c) (BitVec.ofNat 16 (r0 * s.cfg.cols + c)))) ∧
    ((s.cell r0 c).toNat < s.cfg.tileCount → s.bYOff ≠ 0 → s.cfg.tileCount ≤ (s.cell r1 c).toNat →
      exec (.stripBg k) s =
        .next (s.faultTaken 0x11 0x05 (k ++ s.cell r1 c) (BitVec.ofNat 16 (r1 * s.cfg.cols + c))))

/-- The sub-tile vertical shift, bit by bit (rule R218). -/
def Obligations.VerticalShiftBits : Prop :=
  ∀ (a b : Byte) (y n : Nat), 1 ≤ y → y < 8 → n < 8 →
    (combineRows a b y).getLsbD n = if n + y < 8 then a.getLsbD (n + y) else b.getLsbD (n + y - 8)

/-- The background is the world translated by the scroll position (rule R222): with a consistent playfield and the
sampled indices in range, bit b of STRIP[x] after STRIP_BG s is World(8 tX + bXOff + x, 8 tY + bYOff + 8 s + b), and with
both enables at 1 World(SCROLL_X + x, SCROLL_Y + 8 s + b). -/
def Obligations.BackgroundShowsWorld : Prop :=
  ∀ (s : State) (k : Byte), s.cfg.wf = true → k.toNat < s.cfg.vr → s.status.pfValid = true → s.bgReady k.toNat →
    s.Consistent s.tY →
    ∃ t, exec (.stripBg k) s = .next t ∧
      ∀ x b, x < s.cfg.width → b < 8 →
        (t.stripByte x).getLsbD b =
          world s.cfg (8 * s.tX + s.bXOff + x) (8 * s.tY + s.bYOff + 8 * k.toNat + b) ∧
        (s.ctrl.fineXEn = true → s.ctrl.fineYEn = true →
          (t.stripByte x).getLsbD b =
            world s.cfg (s.scrollX.toNat + x) (s.scrollY.toNat + 8 * k.toNat + b))

/-- Scrolling right by one whole tile shows the picture eight columns further on (rule R223). -/
def Obligations.TileScrollTranslates : Prop :=
  ∀ (s : State) (v : Word) (k x : Nat), v.toNat = s.scrollX.toNat + 8 →
    (s.setScrollX v).bgByte k x = s.bgByte k (x + 8)

/-! ### Sprites -/

/-- STRIP_SPRITES is the pixel rule (rules R180, R182, R183, R184): where s < VR, STRIP_VALID = 1, every live entry is
written and every visible index is in range, it completes, each strip pixel is what the entries drawn in list order
make of it, and nothing else changes. -/
def Obligations.StripSpritesDrawsPixels : Prop :=
  ∀ (s : State) (k : Byte), k.toNat < s.cfg.vr → s.status.stripValid = true → s.spritesReady k.toNat →
    ∃ t, exec (.stripSprites k) s = .next t ∧
      t = { s with strip := t.strip, sequencer := none, status := { s.status with done := true } } ∧
      (∀ x b, x < s.cfg.width → b < 8 →
        (t.stripByte x).getLsbD b =
          s.pixelAfter x (8 * k.toNat + b) (List.range s.objCount.toNat) ((s.stripByte x).getLsbD b)) ∧
      (∀ x, s.cfg.width ≤ x → t.strip.read x = s.strip.read x)

/-- Entries that are not visible are skipped with no fault, whatever their sprite index is (rule R182): the strip memory
is left as it was. -/
def Obligations.InvisibleEntriesSkipped : Prop :=
  ∀ (s : State) (k : Byte), k.toNat < s.cfg.vr → s.status.stripValid = true →
    (∀ j, j < s.objCount.toNat → ∃ o, s.objEntry j = some o ∧
      (8 * k.toNat + 8 ≤ o.y.toNat ∨ o.y.toNat + (if o.t.getLsbD 7 then 16 else 8) ≤ 8 * k.toNat ∨
        s.cfg.width ≤ o.x.toNat)) →
    exec (.stripSprites k) s = .next { s with sequencer := none, status := { s.status with done := true } }

/-- STRIP_SPRITES faults SPRITE_INDEX_OOR for the lowest-numbered visible entry out of range, with the strip, the type
byte and the slot in the record, and the strip buffer unchanged (rules R188, R278). -/
def Obligations.SpriteIndexFault : Prop :=
  ∀ (s : State) (k : Byte) (j : Nat) (o : Obj), k.toNat < s.cfg.vr → s.status.stripValid = true →
    j < s.objCount.toNat → (∀ i, i < j → s.entryReady k.toNat i) → s.objEntry j = some o →
    visible s.cfg o k.toNat = true → spriteInRange s.cfg o.t = false →
    exec (.stripSprites k) s = .next (s.faultTaken 0x12 0x06 (k ++ o.t) (BitVec.ofNat 16 j))

/-- STRIP_SPRITES, and RENDER_STRIP and RENDER_FRAME once the background of their strip is drawn, stop with the model-only
fault UNWRITTEN_OBJ at the first entry with a field the host never wrote (rules R60, R220, R221). That all three fields of
every live entry count as read is the model's (log entry 2). -/
def Obligations.UnwrittenObjectStops : Prop :=
  ∀ (s : State) (k : Byte) (j : Nat), k.toNat < s.cfg.vr → j < s.objCount.toNat →
    (∀ i, i < j → s.entryReady k.toNat i) → s.objEntry j = none →
    (s.status.stripValid = true → exec (.stripSprites k) s = .fault (.unwrittenObj j)) ∧
    (s.status.pfValid = true → s.bgReady k.toNat → exec (.renderStrip k) s = .fault (.unwrittenObj j)) ∧
    (s.status.pfValid = true → s.bgReady k.toNat → s.stripInProgress = k.toNat →
      exec (.renderFrame 0x00) s = .fault (.unwrittenObj j))

/-- The transparency laws (rule R190), for one entry drawn on one strip: a sprite whose mask bytes are all 1 and whose
pattern bytes are all 0 changes nothing; one whose mask bytes are all 0 makes every covered pixel its pattern bit; drawing
twice is drawing once; a pattern bit of 1 lights its pixel. -/
def Obligations.TransparencyLaws : Prop :=
  ∀ (s : State) (o : Obj) (k x b : Nat), b < 8 →
    ((∀ i q, i < sprSize o.t → q < sprSize o.t / 8 →
        maskByte s.cfg o.t i q = 0xFF ∧ patternByte s.cfg o.t i q = 0x00) →
      (s.drawObj k o).stripByte x = s.stripByte x) ∧
    ((∀ i q, i < sprSize o.t → q < sprSize o.t / 8 → maskByte s.cfg o.t i q = 0x00) →
      covers s.cfg o x (8 * k + b) = true →
      ((s.drawObj k o).stripByte x).getLsbD b =
        (spritePixel s.cfg o.t (x - o.x.toNat) (8 * k + b - o.y.toNat)).2) ∧
    ((s.drawObj k o).drawObj k o).stripByte x = (s.drawObj k o).stripByte x ∧
    (covers s.cfg o x (8 * k + b) = true →
      (spritePixel s.cfg o.t (x - o.x.toNat) (8 * k + b - o.y.toNat)).2 = true →
      ((s.drawObj k o).stripByte x).getLsbD b = true)

/-- Later on top (rule R189): a pixel that two entries cover gets the first entry's result, then the second's; where the
second is opaque its pattern bit stands. -/
def Obligations.LaterEntryOnTop : Prop :=
  ∀ (s : State) (o₁ o₂ : Obj) (k x b : Nat), b < 8 → covers s.cfg o₁ x (8 * k + b) = true →
    covers s.cfg o₂ x (8 * k + b) = true →
    let p₁ := spritePixel s.cfg o₁.t (x - o₁.x.toNat) (8 * k + b - o₁.y.toNat)
    let p₂ := spritePixel s.cfg o₂.t (x - o₂.x.toNat) (8 * k + b - o₂.y.toNat)
    let v := (((s.drawObj k o₁).drawObj k o₂).stripByte x).getLsbD b
    v = (((((s.stripByte x).getLsbD b && p₁.1) || p₁.2) && p₂.1) || p₂.2) ∧ (p₂.1 = false → v = p₂.2)

/-- STRIP_SPRITES twice gives the same bytes as once (rule R311). -/
def Obligations.SpritesTwiceIsOnce : Prop :=
  ∀ (s : State) (k : Byte), k.toNat < s.cfg.vr → s.status.stripValid = true → s.spritesReady k.toNat →
    ∃ t u, exec (.stripSprites k) s = .next t ∧ exec (.stripSprites k) t = .next u ∧
      ∀ x, x < s.cfg.width → u.stripByte x = t.stripByte x

/-! ### Pages -/

/-- STRIP_EMIT where s < VR and STRIP_VALID = 1 (rules R219, R291): where the sink takes a page, (s, the W strip bytes) is
appended to PAGES, DONE is set, and nothing else of the block changes; where it stalls, the command waits, BUSY, with no
page dropped. That `sinkRoom` counts down is the model's choice (log entry 8). -/
def Obligations.StripEmitAppendsPage : Prop :=
  ∀ (s : State) (k : Byte), k.toNat < s.cfg.vr → s.status.stripValid = true →
    (s.sinkRoom ≠ some 0 →
      exec (.stripEmit k) s = .next { s with
        pages := s.pages ++ [{ index := k.toNat, bytes := (List.range s.cfg.width).map s.stripByte }]
        sinkRoom := s.sinkRoom.map (· - 1)
        sequencer := none
        status := { s.status with done := true } }) ∧
    (s.sinkRoom = some 0 →
      exec (.stripEmit k) s = .next { s with sequencer := some { word := encode (.stripEmit k), strip := k.toNat } })

/-- RENDER_STRIP is its sub-steps (rule R220): where they can run, STRIP_CLEAR, STRIP_BG s, STRIP_SPRITES s and
STRIP_EMIT s, one after the other, end in the very state that RENDER_STRIP s ends in. One premise is that the sink takes
the page; how `sinkRoom` says so is the model's choice (log entry 8). -/
def Obligations.RenderStripIsItsSubSteps : Prop :=
  ∀ (s : State) (k : Byte), k.toNat < s.cfg.vr → s.status.pfValid = true → s.bgReady k.toNat →
    s.spritesReady k.toNat → s.sinkRoom ≠ some 0 →
    ∃ t₁ t₂ t₃ t, exec (.stripClear 0x00) s = .next t₁ ∧ exec (.stripBg k) t₁ = .next t₂ ∧
      exec (.stripSprites k) t₂ = .next t₃ ∧ exec (.stripEmit k) t₃ = .next t ∧
      exec (.renderStrip k) s = .next t

/-- RENDER_STRIP completes (rule R220): the page of strip s is appended, the strip buffer holds its bytes, STRIP_VALID and
DONE are set, and nothing else of the block changes, PF among it. That the sink takes the page is a premise; how `sinkRoom`
says so and counts down is the model's choice (log entry 8). -/
def Obligations.RenderStripCompletes : Prop :=
  ∀ (s : State) (k : Byte), k.toNat < s.cfg.vr → s.status.pfValid = true → s.bgReady k.toNat →
    s.spritesReady k.toNat → s.sinkRoom ≠ some 0 →
    ∃ t, exec (.renderStrip k) s = .next t ∧
      t = { s with
        strip := t.strip
        pages := s.pages ++ [{ index := k.toNat, bytes := (List.range s.cfg.width).map t.stripByte }]
        sinkRoom := s.sinkRoom.map (· - 1)
        sequencer := none
        status := { s.status with stripValid := true, done := true } } ∧
      (∀ x b, x < s.cfg.width → b < 8 →
        (t.stripByte x).getLsbD b =
          s.pixelAfter x (8 * k.toNat + b) (List.range s.objCount.toNat) ((s.bgByte k.toNat x).getLsbD b)) ∧
      (∀ x, s.cfg.width ≤ x → t.strip.read x = s.strip.read x)

/-- Where the sink stalls, RENDER_STRIP waits BUSY in its emitting sub-step: no page is handed over or dropped, and every
register reads as at acceptance (rules R255, R291). How the sink stalls is the model's choice (log entry 8). -/
def Obligations.RenderStripWaits : Prop :=
  ∀ (s : State) (k : Byte), k.toNat < s.cfg.vr → s.status.pfValid = true → s.bgReady k.toNat →
    s.spritesReady k.toNat → s.sinkRoom = some 0 →
    exec (.renderStrip k) s =
      .next { s with sequencer := some { word := encode (.renderStrip k), strip := k.toNat } }

/-- Faults inside RENDER_STRIP (rules R220, R276, R279): on a TILE_INDEX_OOR the strip holds zeros from the clear, on a
SPRITE_INDEX_OOR it holds the background; STRIP_VALID is 1, the record's opcode is 0x20, no page is emitted, and nothing
else changes. -/
def Obligations.RenderStripFaults : Prop :=
  ∀ (s : State) (k : Byte), k.toNat < s.cfg.vr → s.status.pfValid = true →
    (∀ rc, s.firstBadCell k.toNat = some rc →
      ∃ t, exec (.renderStrip k) s = .next t ∧
        t = { (s.faultTaken 0x20 0x05 (k ++ s.cell rc.1 rc.2) (BitVec.ofNat 16 (rc.1 * s.cfg.cols + rc.2))) with
          strip := t.strip, status := { s.status with stripValid := true, fault := true } } ∧
        (∀ x, x < s.cfg.width → t.stripByte x = 0x00) ∧
        ∀ x, s.cfg.width ≤ x → t.strip.read x = s.strip.read x) ∧
    (∀ j o, s.bgReady k.toNat → j < s.objCount.toNat → (∀ i, i < j → s.entryReady k.toNat i) →
      s.objEntry j = some o → visible s.cfg o k.toNat = true → spriteInRange s.cfg o.t = false →
      ∃ t, exec (.renderStrip k) s = .next t ∧
        t = { (s.faultTaken 0x20 0x06 (k ++ o.t) (BitVec.ofNat 16 j)) with
          strip := t.strip, status := { s.status with stripValid := true, fault := true } } ∧
        (∀ x, x < s.cfg.width → t.stripByte x = s.bgByte k.toNat x) ∧
        ∀ x, s.cfg.width ≤ x → t.strip.read x = s.strip.read x)

/-- RENDER_FRAME completes (rule R221): just accepted (strip in progress 0), or resumed at a later strip m after a stall of
the sink (rules R48, R291). Where PF_VALID = 1, every strip left can be drawn and the sink takes that many pages, it
appends the pages of strips m .. VR-1 in order, all with one scroll position and object list; the buffer holds the last
strip; nothing else of the block changes. How `sinkRoom` counts the sink's pages is the model's (log entry 8). -/
def Obligations.RenderFrameCompletes : Prop :=
  ∀ (s : State) (m : Nat), s.status.pfValid = true → s.stripInProgress = m → m < s.cfg.vr →
    (∀ n, s.sinkRoom = some n → s.cfg.vr - m ≤ n) →
    (∀ k, m ≤ k → k < s.cfg.vr → s.bgReady k ∧ s.spritesReady k) →
    ∃ t, exec (.renderFrame 0x00) s = .next t ∧
      t = { s with
        strip := t.strip
        pages := s.pages ++ ((List.range s.cfg.vr).drop m).map s.pageOf
        sinkRoom := s.sinkRoom.map (· - (s.cfg.vr - m))
        sequencer := none
        status := { s.status with stripValid := true, done := true } } ∧
      t.stripBytes = s.picture (s.cfg.vr - 1) ∧
      ∀ x, s.cfg.width ≤ x → t.strip.read x = s.strip.read x

/-- A fault while RENDER_FRAME renders strip j leaves the pages before j emitted, in order, and no page for j or later; the
record holds opcode 0x21 and the first failing check of strip j; the strip buffer holds zeros after a TILE_INDEX_OOR and
the background of strip j after a SPRITE_INDEX_OOR (rules R220, R221, R279, R280). The frame may have been resumed at a
strip m after a stall, and the sink takes the pages before j; how `sinkRoom` counts is the model's (log entry 8). -/
def Obligations.RenderFrameFaultKeepsEarlierPages : Prop :=
  ∀ (s : State) (m j : Nat), s.status.pfValid = true → s.stripInProgress = m → m ≤ j → j < s.cfg.vr →
    (∀ n, s.sinkRoom = some n → j - m ≤ n) → (∀ k, m ≤ k → k < j → s.bgReady k ∧ s.spritesReady k) →
    (∀ rc, s.firstBadCell j = some rc →
      ∃ t, exec (.renderFrame 0x00) s = .next t ∧
        t = { (s.faultTaken 0x21 0x05 (BitVec.ofNat 8 j ++ s.cell rc.1 rc.2)
            (BitVec.ofNat 16 (rc.1 * s.cfg.cols + rc.2))) with
          strip := t.strip
          pages := s.pages ++ ((List.range j).drop m).map s.pageOf
          sinkRoom := s.sinkRoom.map (· - (j - m))
          status := { s.status with stripValid := true, fault := true } } ∧
        (∀ x, x < s.cfg.width → t.stripByte x = 0x00) ∧
        ∀ x, s.cfg.width ≤ x → t.strip.read x = s.strip.read x) ∧
    (∀ e o, s.bgReady j → e < s.objCount.toNat → (∀ i, i < e → s.entryReady j i) →
      s.objEntry e = some o → visible s.cfg o j = true → spriteInRange s.cfg o.t = false →
      ∃ t, exec (.renderFrame 0x00) s = .next t ∧
        t = { (s.faultTaken 0x21 0x06 (BitVec.ofNat 8 j ++ o.t) (BitVec.ofNat 16 e)) with
          strip := t.strip
          pages := s.pages ++ ((List.range j).drop m).map s.pageOf
          sinkRoom := s.sinkRoom.map (· - (j - m))
          status := { s.status with stripValid := true, fault := true } } ∧
        (∀ x, x < s.cfg.width → t.stripByte x = s.bgByte j x) ∧
        ∀ x, s.cfg.width ≤ x → t.strip.read x = s.strip.read x)

/-- A sink that stalls after n more pages of a frame, from strip m on, loses nothing (rules R48, R291): the command stays
BUSY with strip m + n in progress, n pages handed over and every register as at acceptance, and once the sink takes the
rest the frame completes with the same pages in the same order. How the sink stalls is the model's choice (log
entry 8). -/
def Obligations.SinkStallLosesNoPage : Prop :=
  ∀ (s : State) (m n : Nat), s.status.pfValid = true → s.stripInProgress = m →
    s.sinkRoom = some n → m + n < s.cfg.vr → (∀ k, m ≤ k → k < s.cfg.vr → s.bgReady k ∧ s.spritesReady k) →
    ∃ t, exec (.renderFrame 0x00) s = .next t ∧
      t = { s with
        pages := s.pages ++ ((List.range (m + n)).drop m).map s.pageOf
        sinkRoom := some 0
        sequencer := some { word := 0x2100, strip := m + n } } ∧
      ∀ room : Option Nat, (∀ l, room = some l → s.cfg.vr - (m + n) ≤ l) →
        ∃ u, exec (.renderFrame 0x00) (t.setSinkRoom room) = .next u ∧ u.busy = false ∧ u.status.done = true ∧
          u.pages = s.pages ++ ((List.range s.cfg.vr).drop m).map s.pageOf
end

