-- ==== Sys2Proof/Laws/Memory.lean ====
section
/-! SUPPORT. The laws of memory: read after write, bulk writes, and that every operation keeps the canonical form. -/

namespace Sys2Proof.Machine

open Sys2Proof

@[simp] theorem Memory.read_nil (a : Nat) : Memory.read [] a = none := rfl

@[simp] theorem Memory.read_cons (b a : Nat) (v : Byte) (m : Memory) :
    Memory.read ((b, v) :: m) a = if a = b then some v else Memory.read m a := rfl

theorem Memory.read_write (m : Memory) (a b : Nat) (v : Byte) :
    Memory.read (Memory.write m a v) b = if b = a then some v else Memory.read m b := by
  induction m with
  | nil => rfl
  | cons c rest ih =>
    obtain ⟨d, w⟩ := c
    simp only [Memory.write]
    split
    · rfl
    · split
      · next h => subst h; simp only [Memory.read_cons]; split <;> rfl
      · next h1 h2 =>
        simp only [Memory.read_cons, ih]
        split
        · next h3 => subst h3; rw [if_neg (by omega)]
        · rfl

@[simp] theorem Memory.read_write_self (m : Memory) (a : Nat) (v : Byte) :
    Memory.read (Memory.write m a v) a = some v := by simp [Memory.read_write]

theorem Memory.read_write_ne (m : Memory) {a b : Nat} (v : Byte) (h : b ≠ a) :
    Memory.read (Memory.write m a v) b = Memory.read m b := by simp [Memory.read_write, h]

@[simp] theorem Memory.writeAll_nil (m : Memory) : Memory.writeAll m [] = m := rfl

@[simp] theorem Memory.writeAll_cons (m : Memory) (c : Nat × Byte) (cs : List (Nat × Byte)) :
    Memory.writeAll m (c :: cs) = Memory.writeAll (Memory.write m c.1 c.2) cs := rfl

theorem Memory.writeAll_append (m : Memory) (cs ds : List (Nat × Byte)) :
    Memory.writeAll m (cs ++ ds) = Memory.writeAll (Memory.writeAll m cs) ds := by
  simp [Memory.writeAll, List.foldl_append]

/-- A run of `n` writes from address `base` on: what each address holds after it. -/
theorem Memory.read_writeAll_range (m : Memory) (base n : Nat) (f : Nat → Byte) (a : Nat) :
    Memory.read (Memory.writeAll m ((List.range n).map fun x => (base + x, f x))) a =
      if base ≤ a ∧ a < base + n then some (f (a - base)) else Memory.read m a := by
  induction n with
  | zero => simp [List.range_zero]
  | succ n ih =>
    rw [List.range_succ, List.map_append, Memory.writeAll_append]
    simp only [List.map_cons, List.map_nil, Memory.writeAll_cons, Memory.writeAll_nil, Memory.read_write, ih]
    by_cases h : a = base + n
    · subst h; rw [if_pos rfl, if_pos (by omega)]; simp
    · rw [if_neg h]
      by_cases h2 : base ≤ a ∧ a < base + n
      · rw [if_pos h2, if_pos (by omega)]
      · rw [if_neg h2, if_neg (by omega)]

theorem Memory.above_write {m : Memory} {a b : Nat} {v : Byte} (h : a < b) (hm : Memory.above a m = true) :
    Memory.above a (Memory.write m b v) = true := by
  induction m generalizing a with
  | nil => simp [Memory.write, Memory.above, h]
  | cons c rest ih =>
    obtain ⟨d, w⟩ := c
    simp only [Memory.above, Bool.and_eq_true, decide_eq_true_eq] at hm
    simp only [Memory.write]
    split
    · next hbd => simp [Memory.above, h, hbd, hm.2]
    · split
      · next h' => subst h'; simp [Memory.above, h, hm.2]
      · next h1 h2 =>
        simp only [Memory.above, Bool.and_eq_true, decide_eq_true_eq]
        exact ⟨hm.1, ih (by omega) hm.2⟩

/-- A write keeps the canonical form. -/
theorem Memory.wf_write {m : Memory} (a : Nat) (v : Byte) (hm : Memory.wf m = true) :
    Memory.wf (Memory.write m a v) = true := by
  cases m with
  | nil => rfl
  | cons c rest =>
    obtain ⟨d, w⟩ := c
    simp only [Memory.wf] at hm
    simp only [Memory.write]
    split
    · next h => simp [Memory.wf, Memory.above, h, hm]
    · split
      · next h => subst h; exact hm
      · next h1 h2 => exact Memory.above_write (by omega) hm

/-- A list of writes keeps the canonical form. -/
theorem Memory.wf_writeAll {m : Memory} (cs : List (Nat × Byte)) (hm : Memory.wf m = true) :
    Memory.wf (Memory.writeAll m cs) = true := by
  induction cs generalizing m with
  | nil => exact hm
  | cons c cs ih => exact ih (Memory.wf_write c.1 c.2 hm)

/-- A list of writes lists only addresses that were listed or are written. -/
theorem Memory.isSome_writeAll {m : Memory} {cs : List (Nat × Byte)} {a : Nat}
    (h : (Memory.read (Memory.writeAll m cs) a).isSome) :
    (Memory.read m a).isSome ∨ ∃ c ∈ cs, c.1 = a := by
  induction cs generalizing m with
  | nil => exact .inl h
  | cons c cs ih =>
    rcases ih (m := Memory.write m c.1 c.2) h with h | ⟨d, hd, rfl⟩
    · rw [Memory.read_write] at h
      split at h
      · next e => exact .inr ⟨c, by simp, e.symm⟩
      · exact .inl h
    · exact .inr ⟨d, by simp [hd], rfl⟩

/-- Nothing is listed at or below an address that every entry is above. -/
theorem Memory.read_none_of_above {m : Memory} {a b : Nat} (h : Memory.above a m = true) (hb : b ≤ a) :
    Memory.read m b = none := by
  induction m generalizing a with
  | nil => rfl
  | cons c rest ih =>
    obtain ⟨d, w⟩ := c
    simp only [Memory.above, Bool.and_eq_true, decide_eq_true_eq] at h
    rw [Memory.read_cons, if_neg (by omega)]
    exact ih h.2 (by omega)

/-- The canonical form is canonical: memories in it that read alike at every address are equal. -/
theorem Memory.ext_of_read {m n : Memory} (hm : Memory.wf m = true) (hn : Memory.wf n = true)
    (h : ∀ a, Memory.read m a = Memory.read n a) : m = n := by
  induction m generalizing n with
  | nil =>
    cases n with
    | nil => rfl
    | cons c rest => have := h c.1; simp [Memory.read] at this
  | cons c rest ih =>
    obtain ⟨d, w⟩ := c
    cases n with
    | nil => have := h d; simp at this
    | cons e rest' =>
      obtain ⟨f, u⟩ := e
      have hm' : Memory.above d rest = true := hm
      have hn' : Memory.above f rest' = true := hn
      have hdf : d = f := by
        by_contra hne
        rcases Nat.lt_or_ge d f with hlt | hge
        · have := h d
          rw [Memory.read_cons, if_pos rfl, Memory.read_cons, if_neg hne,
            Memory.read_none_of_above hn' (by omega)] at this
          cases this
        · have := h f
          rw [Memory.read_cons, if_neg (Ne.symm hne), Memory.read_cons, if_pos rfl,
            Memory.read_none_of_above hm' (by omega)] at this
          cases this
      subst hdf
      have hw : w = u := by have := h d; simpa using this
      subst hw
      have wfOf : ∀ {r : Memory}, Memory.above d r = true → Memory.wf r = true := by
        intro r hr
        cases r with
        | nil => rfl
        | cons x xs => simp only [Memory.above, Bool.and_eq_true] at hr; exact hr.2
      rw [ih (wfOf hm') (wfOf hn') ?_]
      intro a
      by_cases ha : a = d
      · subst ha; rw [Memory.read_none_of_above hm' (by omega), Memory.read_none_of_above hn' (by omega)]
      · have := h a; simpa [Memory.read_cons, ha] using this

/-- Reset leaves memories in the canonical form. -/
theorem State.powerOn_memories_wf (c : Config) :
    Memory.wf (State.powerOn c).pf = true ∧ Memory.wf (State.powerOn c).obj = true ∧
      Memory.wf (State.powerOn c).strip = true := ⟨rfl, rfl, rfl⟩

end Sys2Proof.Machine
end

