-- ==== Sys2Proof/Laws/State.lean ====
section
/-! SUPPORT. One lemma per field per update of State: what each named update writes, and that it leaves every other
field alone. -/

namespace Sys2Proof.Machine

open Sys2Proof

variable (s : State)

/-! `State.setScript` -/

@[simp] theorem State.setScript_cfg (l : List HostOp) : (s.setScript l).cfg = s.cfg := rfl
@[simp] theorem State.setScript_ctrl (l : List HostOp) : (s.setScript l).ctrl = s.ctrl := rfl
@[simp] theorem State.setScript_status (l : List HostOp) : (s.setScript l).status = s.status := rfl
@[simp] theorem State.setScript_scrollX (l : List HostOp) : (s.setScript l).scrollX = s.scrollX := rfl
@[simp] theorem State.setScript_scrollY (l : List HostOp) : (s.setScript l).scrollY = s.scrollY := rfl
@[simp] theorem State.setScript_objCount (l : List HostOp) : (s.setScript l).objCount = s.objCount := rfl
@[simp] theorem State.setScript_faultCode (l : List HostOp) : (s.setScript l).faultCode = s.faultCode := rfl
@[simp] theorem State.setScript_faultInfo (l : List HostOp) : (s.setScript l).faultInfo = s.faultInfo := rfl
@[simp] theorem State.setScript_faultLoc (l : List HostOp) : (s.setScript l).faultLoc = s.faultLoc := rfl
@[simp] theorem State.setScript_pfOrigin (l : List HostOp) : (s.setScript l).pfOrigin = s.pfOrigin := rfl
@[simp] theorem State.setScript_sequencer (l : List HostOp) : (s.setScript l).sequencer = s.sequencer := rfl
@[simp] theorem State.setScript_pf (l : List HostOp) : (s.setScript l).pf = s.pf := rfl
@[simp] theorem State.setScript_obj (l : List HostOp) : (s.setScript l).obj = s.obj := rfl
@[simp] theorem State.setScript_strip (l : List HostOp) : (s.setScript l).strip = s.strip := rfl
@[simp] theorem State.setScript_pages (l : List HostOp) : (s.setScript l).pages = s.pages := rfl
@[simp] theorem State.setScript_faulted (l : List HostOp) : (s.setScript l).faulted = s.faulted := rfl
@[simp] theorem State.setScript_script (l : List HostOp) : (s.setScript l).script = l := rfl
@[simp] theorem State.setScript_turns (l : List HostOp) : (s.setScript l).turns = s.turns := rfl
@[simp] theorem State.setScript_replies (l : List HostOp) : (s.setScript l).replies = s.replies := rfl
@[simp] theorem State.setScript_sinkRoom (l : List HostOp) : (s.setScript l).sinkRoom = s.sinkRoom := rfl
@[simp] theorem State.setScript_resets (l : List HostOp) : (s.setScript l).resets = s.resets := rfl

/-! `State.setTurns` -/

@[simp] theorem State.setTurns_cfg (l : List Turn) : (s.setTurns l).cfg = s.cfg := rfl
@[simp] theorem State.setTurns_ctrl (l : List Turn) : (s.setTurns l).ctrl = s.ctrl := rfl
@[simp] theorem State.setTurns_status (l : List Turn) : (s.setTurns l).status = s.status := rfl
@[simp] theorem State.setTurns_scrollX (l : List Turn) : (s.setTurns l).scrollX = s.scrollX := rfl
@[simp] theorem State.setTurns_scrollY (l : List Turn) : (s.setTurns l).scrollY = s.scrollY := rfl
@[simp] theorem State.setTurns_objCount (l : List Turn) : (s.setTurns l).objCount = s.objCount := rfl
@[simp] theorem State.setTurns_faultCode (l : List Turn) : (s.setTurns l).faultCode = s.faultCode := rfl
@[simp] theorem State.setTurns_faultInfo (l : List Turn) : (s.setTurns l).faultInfo = s.faultInfo := rfl
@[simp] theorem State.setTurns_faultLoc (l : List Turn) : (s.setTurns l).faultLoc = s.faultLoc := rfl
@[simp] theorem State.setTurns_pfOrigin (l : List Turn) : (s.setTurns l).pfOrigin = s.pfOrigin := rfl
@[simp] theorem State.setTurns_sequencer (l : List Turn) : (s.setTurns l).sequencer = s.sequencer := rfl
@[simp] theorem State.setTurns_pf (l : List Turn) : (s.setTurns l).pf = s.pf := rfl
@[simp] theorem State.setTurns_obj (l : List Turn) : (s.setTurns l).obj = s.obj := rfl
@[simp] theorem State.setTurns_strip (l : List Turn) : (s.setTurns l).strip = s.strip := rfl
@[simp] theorem State.setTurns_pages (l : List Turn) : (s.setTurns l).pages = s.pages := rfl
@[simp] theorem State.setTurns_faulted (l : List Turn) : (s.setTurns l).faulted = s.faulted := rfl
@[simp] theorem State.setTurns_script (l : List Turn) : (s.setTurns l).script = s.script := rfl
@[simp] theorem State.setTurns_turns (l : List Turn) : (s.setTurns l).turns = l := rfl
@[simp] theorem State.setTurns_replies (l : List Turn) : (s.setTurns l).replies = s.replies := rfl
@[simp] theorem State.setTurns_sinkRoom (l : List Turn) : (s.setTurns l).sinkRoom = s.sinkRoom := rfl
@[simp] theorem State.setTurns_resets (l : List Turn) : (s.setTurns l).resets = s.resets := rfl

/-! `State.pushReply` -/

@[simp] theorem State.pushReply_cfg (w : Word) : (s.pushReply w).cfg = s.cfg := rfl
@[simp] theorem State.pushReply_ctrl (w : Word) : (s.pushReply w).ctrl = s.ctrl := rfl
@[simp] theorem State.pushReply_status (w : Word) : (s.pushReply w).status = s.status := rfl
@[simp] theorem State.pushReply_scrollX (w : Word) : (s.pushReply w).scrollX = s.scrollX := rfl
@[simp] theorem State.pushReply_scrollY (w : Word) : (s.pushReply w).scrollY = s.scrollY := rfl
@[simp] theorem State.pushReply_objCount (w : Word) : (s.pushReply w).objCount = s.objCount := rfl
@[simp] theorem State.pushReply_faultCode (w : Word) : (s.pushReply w).faultCode = s.faultCode := rfl
@[simp] theorem State.pushReply_faultInfo (w : Word) : (s.pushReply w).faultInfo = s.faultInfo := rfl
@[simp] theorem State.pushReply_faultLoc (w : Word) : (s.pushReply w).faultLoc = s.faultLoc := rfl
@[simp] theorem State.pushReply_pfOrigin (w : Word) : (s.pushReply w).pfOrigin = s.pfOrigin := rfl
@[simp] theorem State.pushReply_sequencer (w : Word) : (s.pushReply w).sequencer = s.sequencer := rfl
@[simp] theorem State.pushReply_pf (w : Word) : (s.pushReply w).pf = s.pf := rfl
@[simp] theorem State.pushReply_obj (w : Word) : (s.pushReply w).obj = s.obj := rfl
@[simp] theorem State.pushReply_strip (w : Word) : (s.pushReply w).strip = s.strip := rfl
@[simp] theorem State.pushReply_pages (w : Word) : (s.pushReply w).pages = s.pages := rfl
@[simp] theorem State.pushReply_faulted (w : Word) : (s.pushReply w).faulted = s.faulted := rfl
@[simp] theorem State.pushReply_script (w : Word) : (s.pushReply w).script = s.script := rfl
@[simp] theorem State.pushReply_turns (w : Word) : (s.pushReply w).turns = s.turns := rfl
@[simp] theorem State.pushReply_replies (w : Word) : (s.pushReply w).replies = s.replies ++ [w] := rfl
@[simp] theorem State.pushReply_sinkRoom (w : Word) : (s.pushReply w).sinkRoom = s.sinkRoom := rfl
@[simp] theorem State.pushReply_resets (w : Word) : (s.pushReply w).resets = s.resets := rfl

/-! `State.setSinkRoom` -/

@[simp] theorem State.setSinkRoom_cfg (r : Option Nat) : (s.setSinkRoom r).cfg = s.cfg := rfl
@[simp] theorem State.setSinkRoom_ctrl (r : Option Nat) : (s.setSinkRoom r).ctrl = s.ctrl := rfl
@[simp] theorem State.setSinkRoom_status (r : Option Nat) : (s.setSinkRoom r).status = s.status := rfl
@[simp] theorem State.setSinkRoom_scrollX (r : Option Nat) : (s.setSinkRoom r).scrollX = s.scrollX := rfl
@[simp] theorem State.setSinkRoom_scrollY (r : Option Nat) : (s.setSinkRoom r).scrollY = s.scrollY := rfl
@[simp] theorem State.setSinkRoom_objCount (r : Option Nat) : (s.setSinkRoom r).objCount = s.objCount := rfl
@[simp] theorem State.setSinkRoom_faultCode (r : Option Nat) : (s.setSinkRoom r).faultCode = s.faultCode := rfl
@[simp] theorem State.setSinkRoom_faultInfo (r : Option Nat) : (s.setSinkRoom r).faultInfo = s.faultInfo := rfl
@[simp] theorem State.setSinkRoom_faultLoc (r : Option Nat) : (s.setSinkRoom r).faultLoc = s.faultLoc := rfl
@[simp] theorem State.setSinkRoom_pfOrigin (r : Option Nat) : (s.setSinkRoom r).pfOrigin = s.pfOrigin := rfl
@[simp] theorem State.setSinkRoom_sequencer (r : Option Nat) : (s.setSinkRoom r).sequencer = s.sequencer := rfl
@[simp] theorem State.setSinkRoom_pf (r : Option Nat) : (s.setSinkRoom r).pf = s.pf := rfl
@[simp] theorem State.setSinkRoom_obj (r : Option Nat) : (s.setSinkRoom r).obj = s.obj := rfl
@[simp] theorem State.setSinkRoom_strip (r : Option Nat) : (s.setSinkRoom r).strip = s.strip := rfl
@[simp] theorem State.setSinkRoom_pages (r : Option Nat) : (s.setSinkRoom r).pages = s.pages := rfl
@[simp] theorem State.setSinkRoom_faulted (r : Option Nat) : (s.setSinkRoom r).faulted = s.faulted := rfl
@[simp] theorem State.setSinkRoom_script (r : Option Nat) : (s.setSinkRoom r).script = s.script := rfl
@[simp] theorem State.setSinkRoom_turns (r : Option Nat) : (s.setSinkRoom r).turns = s.turns := rfl
@[simp] theorem State.setSinkRoom_replies (r : Option Nat) : (s.setSinkRoom r).replies = s.replies := rfl
@[simp] theorem State.setSinkRoom_sinkRoom (r : Option Nat) : (s.setSinkRoom r).sinkRoom = r := rfl
@[simp] theorem State.setSinkRoom_resets (r : Option Nat) : (s.setSinkRoom r).resets = s.resets := rfl

/-! `State.setCtrl` -/

@[simp] theorem State.setCtrl_cfg (c : Ctrl) : (s.setCtrl c).cfg = s.cfg := rfl
@[simp] theorem State.setCtrl_ctrl (c : Ctrl) : (s.setCtrl c).ctrl = c := rfl
@[simp] theorem State.setCtrl_status (c : Ctrl) : (s.setCtrl c).status = s.status := rfl
@[simp] theorem State.setCtrl_scrollX (c : Ctrl) : (s.setCtrl c).scrollX = s.scrollX := rfl
@[simp] theorem State.setCtrl_scrollY (c : Ctrl) : (s.setCtrl c).scrollY = s.scrollY := rfl
@[simp] theorem State.setCtrl_objCount (c : Ctrl) : (s.setCtrl c).objCount = s.objCount := rfl
@[simp] theorem State.setCtrl_faultCode (c : Ctrl) : (s.setCtrl c).faultCode = s.faultCode := rfl
@[simp] theorem State.setCtrl_faultInfo (c : Ctrl) : (s.setCtrl c).faultInfo = s.faultInfo := rfl
@[simp] theorem State.setCtrl_faultLoc (c : Ctrl) : (s.setCtrl c).faultLoc = s.faultLoc := rfl
@[simp] theorem State.setCtrl_pfOrigin (c : Ctrl) : (s.setCtrl c).pfOrigin = s.pfOrigin := rfl
@[simp] theorem State.setCtrl_sequencer (c : Ctrl) : (s.setCtrl c).sequencer = s.sequencer := rfl
@[simp] theorem State.setCtrl_pf (c : Ctrl) : (s.setCtrl c).pf = s.pf := rfl
@[simp] theorem State.setCtrl_obj (c : Ctrl) : (s.setCtrl c).obj = s.obj := rfl
@[simp] theorem State.setCtrl_strip (c : Ctrl) : (s.setCtrl c).strip = s.strip := rfl
@[simp] theorem State.setCtrl_pages (c : Ctrl) : (s.setCtrl c).pages = s.pages := rfl
@[simp] theorem State.setCtrl_faulted (c : Ctrl) : (s.setCtrl c).faulted = s.faulted := rfl
@[simp] theorem State.setCtrl_script (c : Ctrl) : (s.setCtrl c).script = s.script := rfl
@[simp] theorem State.setCtrl_turns (c : Ctrl) : (s.setCtrl c).turns = s.turns := rfl
@[simp] theorem State.setCtrl_replies (c : Ctrl) : (s.setCtrl c).replies = s.replies := rfl
@[simp] theorem State.setCtrl_sinkRoom (c : Ctrl) : (s.setCtrl c).sinkRoom = s.sinkRoom := rfl
@[simp] theorem State.setCtrl_resets (c : Ctrl) : (s.setCtrl c).resets = s.resets := rfl

/-! `State.setStatus` -/

@[simp] theorem State.setStatus_cfg (st : Status) : (s.setStatus st).cfg = s.cfg := rfl
@[simp] theorem State.setStatus_ctrl (st : Status) : (s.setStatus st).ctrl = s.ctrl := rfl
@[simp] theorem State.setStatus_status (st : Status) : (s.setStatus st).status = st := rfl
@[simp] theorem State.setStatus_scrollX (st : Status) : (s.setStatus st).scrollX = s.scrollX := rfl
@[simp] theorem State.setStatus_scrollY (st : Status) : (s.setStatus st).scrollY = s.scrollY := rfl
@[simp] theorem State.setStatus_objCount (st : Status) : (s.setStatus st).objCount = s.objCount := rfl
@[simp] theorem State.setStatus_faultCode (st : Status) : (s.setStatus st).faultCode = s.faultCode := rfl
@[simp] theorem State.setStatus_faultInfo (st : Status) : (s.setStatus st).faultInfo = s.faultInfo := rfl
@[simp] theorem State.setStatus_faultLoc (st : Status) : (s.setStatus st).faultLoc = s.faultLoc := rfl
@[simp] theorem State.setStatus_pfOrigin (st : Status) : (s.setStatus st).pfOrigin = s.pfOrigin := rfl
@[simp] theorem State.setStatus_sequencer (st : Status) : (s.setStatus st).sequencer = s.sequencer := rfl
@[simp] theorem State.setStatus_pf (st : Status) : (s.setStatus st).pf = s.pf := rfl
@[simp] theorem State.setStatus_obj (st : Status) : (s.setStatus st).obj = s.obj := rfl
@[simp] theorem State.setStatus_strip (st : Status) : (s.setStatus st).strip = s.strip := rfl
@[simp] theorem State.setStatus_pages (st : Status) : (s.setStatus st).pages = s.pages := rfl
@[simp] theorem State.setStatus_faulted (st : Status) : (s.setStatus st).faulted = s.faulted := rfl
@[simp] theorem State.setStatus_script (st : Status) : (s.setStatus st).script = s.script := rfl
@[simp] theorem State.setStatus_turns (st : Status) : (s.setStatus st).turns = s.turns := rfl
@[simp] theorem State.setStatus_replies (st : Status) : (s.setStatus st).replies = s.replies := rfl
@[simp] theorem State.setStatus_sinkRoom (st : Status) : (s.setStatus st).sinkRoom = s.sinkRoom := rfl
@[simp] theorem State.setStatus_resets (st : Status) : (s.setStatus st).resets = s.resets := rfl

/-! `State.setScrollX` -/

@[simp] theorem State.setScrollX_cfg (v : Word) : (s.setScrollX v).cfg = s.cfg := rfl
@[simp] theorem State.setScrollX_ctrl (v : Word) : (s.setScrollX v).ctrl = s.ctrl := rfl
@[simp] theorem State.setScrollX_status (v : Word) : (s.setScrollX v).status = s.status := rfl
@[simp] theorem State.setScrollX_scrollX (v : Word) : (s.setScrollX v).scrollX = v := rfl
@[simp] theorem State.setScrollX_scrollY (v : Word) : (s.setScrollX v).scrollY = s.scrollY := rfl
@[simp] theorem State.setScrollX_objCount (v : Word) : (s.setScrollX v).objCount = s.objCount := rfl
@[simp] theorem State.setScrollX_faultCode (v : Word) : (s.setScrollX v).faultCode = s.faultCode := rfl
@[simp] theorem State.setScrollX_faultInfo (v : Word) : (s.setScrollX v).faultInfo = s.faultInfo := rfl
@[simp] theorem State.setScrollX_faultLoc (v : Word) : (s.setScrollX v).faultLoc = s.faultLoc := rfl
@[simp] theorem State.setScrollX_pfOrigin (v : Word) : (s.setScrollX v).pfOrigin = s.pfOrigin := rfl
@[simp] theorem State.setScrollX_sequencer (v : Word) : (s.setScrollX v).sequencer = s.sequencer := rfl
@[simp] theorem State.setScrollX_pf (v : Word) : (s.setScrollX v).pf = s.pf := rfl
@[simp] theorem State.setScrollX_obj (v : Word) : (s.setScrollX v).obj = s.obj := rfl
@[simp] theorem State.setScrollX_strip (v : Word) : (s.setScrollX v).strip = s.strip := rfl
@[simp] theorem State.setScrollX_pages (v : Word) : (s.setScrollX v).pages = s.pages := rfl
@[simp] theorem State.setScrollX_faulted (v : Word) : (s.setScrollX v).faulted = s.faulted := rfl
@[simp] theorem State.setScrollX_script (v : Word) : (s.setScrollX v).script = s.script := rfl
@[simp] theorem State.setScrollX_turns (v : Word) : (s.setScrollX v).turns = s.turns := rfl
@[simp] theorem State.setScrollX_replies (v : Word) : (s.setScrollX v).replies = s.replies := rfl
@[simp] theorem State.setScrollX_sinkRoom (v : Word) : (s.setScrollX v).sinkRoom = s.sinkRoom := rfl
@[simp] theorem State.setScrollX_resets (v : Word) : (s.setScrollX v).resets = s.resets := rfl

/-! `State.setScrollY` -/

@[simp] theorem State.setScrollY_cfg (v : Word) : (s.setScrollY v).cfg = s.cfg := rfl
@[simp] theorem State.setScrollY_ctrl (v : Word) : (s.setScrollY v).ctrl = s.ctrl := rfl
@[simp] theorem State.setScrollY_status (v : Word) : (s.setScrollY v).status = s.status := rfl
@[simp] theorem State.setScrollY_scrollX (v : Word) : (s.setScrollY v).scrollX = s.scrollX := rfl
@[simp] theorem State.setScrollY_scrollY (v : Word) : (s.setScrollY v).scrollY = v := rfl
@[simp] theorem State.setScrollY_objCount (v : Word) : (s.setScrollY v).objCount = s.objCount := rfl
@[simp] theorem State.setScrollY_faultCode (v : Word) : (s.setScrollY v).faultCode = s.faultCode := rfl
@[simp] theorem State.setScrollY_faultInfo (v : Word) : (s.setScrollY v).faultInfo = s.faultInfo := rfl
@[simp] theorem State.setScrollY_faultLoc (v : Word) : (s.setScrollY v).faultLoc = s.faultLoc := rfl
@[simp] theorem State.setScrollY_pfOrigin (v : Word) : (s.setScrollY v).pfOrigin = s.pfOrigin := rfl
@[simp] theorem State.setScrollY_sequencer (v : Word) : (s.setScrollY v).sequencer = s.sequencer := rfl
@[simp] theorem State.setScrollY_pf (v : Word) : (s.setScrollY v).pf = s.pf := rfl
@[simp] theorem State.setScrollY_obj (v : Word) : (s.setScrollY v).obj = s.obj := rfl
@[simp] theorem State.setScrollY_strip (v : Word) : (s.setScrollY v).strip = s.strip := rfl
@[simp] theorem State.setScrollY_pages (v : Word) : (s.setScrollY v).pages = s.pages := rfl
@[simp] theorem State.setScrollY_faulted (v : Word) : (s.setScrollY v).faulted = s.faulted := rfl
@[simp] theorem State.setScrollY_script (v : Word) : (s.setScrollY v).script = s.script := rfl
@[simp] theorem State.setScrollY_turns (v : Word) : (s.setScrollY v).turns = s.turns := rfl
@[simp] theorem State.setScrollY_replies (v : Word) : (s.setScrollY v).replies = s.replies := rfl
@[simp] theorem State.setScrollY_sinkRoom (v : Word) : (s.setScrollY v).sinkRoom = s.sinkRoom := rfl
@[simp] theorem State.setScrollY_resets (v : Word) : (s.setScrollY v).resets = s.resets := rfl

/-! `State.setObjCount` -/

@[simp] theorem State.setObjCount_cfg (v : Byte) : (s.setObjCount v).cfg = s.cfg := rfl
@[simp] theorem State.setObjCount_ctrl (v : Byte) : (s.setObjCount v).ctrl = s.ctrl := rfl
@[simp] theorem State.setObjCount_status (v : Byte) : (s.setObjCount v).status = s.status := rfl
@[simp] theorem State.setObjCount_scrollX (v : Byte) : (s.setObjCount v).scrollX = s.scrollX := rfl
@[simp] theorem State.setObjCount_scrollY (v : Byte) : (s.setObjCount v).scrollY = s.scrollY := rfl
@[simp] theorem State.setObjCount_objCount (v : Byte) : (s.setObjCount v).objCount = v := rfl
@[simp] theorem State.setObjCount_faultCode (v : Byte) : (s.setObjCount v).faultCode = s.faultCode := rfl
@[simp] theorem State.setObjCount_faultInfo (v : Byte) : (s.setObjCount v).faultInfo = s.faultInfo := rfl
@[simp] theorem State.setObjCount_faultLoc (v : Byte) : (s.setObjCount v).faultLoc = s.faultLoc := rfl
@[simp] theorem State.setObjCount_pfOrigin (v : Byte) : (s.setObjCount v).pfOrigin = s.pfOrigin := rfl
@[simp] theorem State.setObjCount_sequencer (v : Byte) : (s.setObjCount v).sequencer = s.sequencer := rfl
@[simp] theorem State.setObjCount_pf (v : Byte) : (s.setObjCount v).pf = s.pf := rfl
@[simp] theorem State.setObjCount_obj (v : Byte) : (s.setObjCount v).obj = s.obj := rfl
@[simp] theorem State.setObjCount_strip (v : Byte) : (s.setObjCount v).strip = s.strip := rfl
@[simp] theorem State.setObjCount_pages (v : Byte) : (s.setObjCount v).pages = s.pages := rfl
@[simp] theorem State.setObjCount_faulted (v : Byte) : (s.setObjCount v).faulted = s.faulted := rfl
@[simp] theorem State.setObjCount_script (v : Byte) : (s.setObjCount v).script = s.script := rfl
@[simp] theorem State.setObjCount_turns (v : Byte) : (s.setObjCount v).turns = s.turns := rfl
@[simp] theorem State.setObjCount_replies (v : Byte) : (s.setObjCount v).replies = s.replies := rfl
@[simp] theorem State.setObjCount_sinkRoom (v : Byte) : (s.setObjCount v).sinkRoom = s.sinkRoom := rfl
@[simp] theorem State.setObjCount_resets (v : Byte) : (s.setObjCount v).resets = s.resets := rfl

/-! `State.setObj` -/

@[simp] theorem State.setObj_cfg (m : Memory) : (s.setObj m).cfg = s.cfg := rfl
@[simp] theorem State.setObj_ctrl (m : Memory) : (s.setObj m).ctrl = s.ctrl := rfl
@[simp] theorem State.setObj_status (m : Memory) : (s.setObj m).status = s.status := rfl
@[simp] theorem State.setObj_scrollX (m : Memory) : (s.setObj m).scrollX = s.scrollX := rfl
@[simp] theorem State.setObj_scrollY (m : Memory) : (s.setObj m).scrollY = s.scrollY := rfl
@[simp] theorem State.setObj_objCount (m : Memory) : (s.setObj m).objCount = s.objCount := rfl
@[simp] theorem State.setObj_faultCode (m : Memory) : (s.setObj m).faultCode = s.faultCode := rfl
@[simp] theorem State.setObj_faultInfo (m : Memory) : (s.setObj m).faultInfo = s.faultInfo := rfl
@[simp] theorem State.setObj_faultLoc (m : Memory) : (s.setObj m).faultLoc = s.faultLoc := rfl
@[simp] theorem State.setObj_pfOrigin (m : Memory) : (s.setObj m).pfOrigin = s.pfOrigin := rfl
@[simp] theorem State.setObj_sequencer (m : Memory) : (s.setObj m).sequencer = s.sequencer := rfl
@[simp] theorem State.setObj_pf (m : Memory) : (s.setObj m).pf = s.pf := rfl
@[simp] theorem State.setObj_obj (m : Memory) : (s.setObj m).obj = m := rfl
@[simp] theorem State.setObj_strip (m : Memory) : (s.setObj m).strip = s.strip := rfl
@[simp] theorem State.setObj_pages (m : Memory) : (s.setObj m).pages = s.pages := rfl
@[simp] theorem State.setObj_faulted (m : Memory) : (s.setObj m).faulted = s.faulted := rfl
@[simp] theorem State.setObj_script (m : Memory) : (s.setObj m).script = s.script := rfl
@[simp] theorem State.setObj_turns (m : Memory) : (s.setObj m).turns = s.turns := rfl
@[simp] theorem State.setObj_replies (m : Memory) : (s.setObj m).replies = s.replies := rfl
@[simp] theorem State.setObj_sinkRoom (m : Memory) : (s.setObj m).sinkRoom = s.sinkRoom := rfl
@[simp] theorem State.setObj_resets (m : Memory) : (s.setObj m).resets = s.resets := rfl

/-! `State.setStrip` -/

@[simp] theorem State.setStrip_cfg (m : Memory) : (s.setStrip m).cfg = s.cfg := rfl
@[simp] theorem State.setStrip_ctrl (m : Memory) : (s.setStrip m).ctrl = s.ctrl := rfl
@[simp] theorem State.setStrip_status (m : Memory) : (s.setStrip m).status = s.status := rfl
@[simp] theorem State.setStrip_scrollX (m : Memory) : (s.setStrip m).scrollX = s.scrollX := rfl
@[simp] theorem State.setStrip_scrollY (m : Memory) : (s.setStrip m).scrollY = s.scrollY := rfl
@[simp] theorem State.setStrip_objCount (m : Memory) : (s.setStrip m).objCount = s.objCount := rfl
@[simp] theorem State.setStrip_faultCode (m : Memory) : (s.setStrip m).faultCode = s.faultCode := rfl
@[simp] theorem State.setStrip_faultInfo (m : Memory) : (s.setStrip m).faultInfo = s.faultInfo := rfl
@[simp] theorem State.setStrip_faultLoc (m : Memory) : (s.setStrip m).faultLoc = s.faultLoc := rfl
@[simp] theorem State.setStrip_pfOrigin (m : Memory) : (s.setStrip m).pfOrigin = s.pfOrigin := rfl
@[simp] theorem State.setStrip_sequencer (m : Memory) : (s.setStrip m).sequencer = s.sequencer := rfl
@[simp] theorem State.setStrip_pf (m : Memory) : (s.setStrip m).pf = s.pf := rfl
@[simp] theorem State.setStrip_obj (m : Memory) : (s.setStrip m).obj = s.obj := rfl
@[simp] theorem State.setStrip_strip (m : Memory) : (s.setStrip m).strip = m := rfl
@[simp] theorem State.setStrip_pages (m : Memory) : (s.setStrip m).pages = s.pages := rfl
@[simp] theorem State.setStrip_faulted (m : Memory) : (s.setStrip m).faulted = s.faulted := rfl
@[simp] theorem State.setStrip_script (m : Memory) : (s.setStrip m).script = s.script := rfl
@[simp] theorem State.setStrip_turns (m : Memory) : (s.setStrip m).turns = s.turns := rfl
@[simp] theorem State.setStrip_replies (m : Memory) : (s.setStrip m).replies = s.replies := rfl
@[simp] theorem State.setStrip_sinkRoom (m : Memory) : (s.setStrip m).sinkRoom = s.sinkRoom := rfl
@[simp] theorem State.setStrip_resets (m : Memory) : (s.setStrip m).resets = s.resets := rfl

/-! `State.setPf` -/

@[simp] theorem State.setPf_cfg (m : Memory) : (s.setPf m).cfg = s.cfg := rfl
@[simp] theorem State.setPf_ctrl (m : Memory) : (s.setPf m).ctrl = s.ctrl := rfl
@[simp] theorem State.setPf_status (m : Memory) : (s.setPf m).status = s.status := rfl
@[simp] theorem State.setPf_scrollX (m : Memory) : (s.setPf m).scrollX = s.scrollX := rfl
@[simp] theorem State.setPf_scrollY (m : Memory) : (s.setPf m).scrollY = s.scrollY := rfl
@[simp] theorem State.setPf_objCount (m : Memory) : (s.setPf m).objCount = s.objCount := rfl
@[simp] theorem State.setPf_faultCode (m : Memory) : (s.setPf m).faultCode = s.faultCode := rfl
@[simp] theorem State.setPf_faultInfo (m : Memory) : (s.setPf m).faultInfo = s.faultInfo := rfl
@[simp] theorem State.setPf_faultLoc (m : Memory) : (s.setPf m).faultLoc = s.faultLoc := rfl
@[simp] theorem State.setPf_pfOrigin (m : Memory) : (s.setPf m).pfOrigin = s.pfOrigin := rfl
@[simp] theorem State.setPf_sequencer (m : Memory) : (s.setPf m).sequencer = s.sequencer := rfl
@[simp] theorem State.setPf_pf (m : Memory) : (s.setPf m).pf = m := rfl
@[simp] theorem State.setPf_obj (m : Memory) : (s.setPf m).obj = s.obj := rfl
@[simp] theorem State.setPf_strip (m : Memory) : (s.setPf m).strip = s.strip := rfl
@[simp] theorem State.setPf_pages (m : Memory) : (s.setPf m).pages = s.pages := rfl
@[simp] theorem State.setPf_faulted (m : Memory) : (s.setPf m).faulted = s.faulted := rfl
@[simp] theorem State.setPf_script (m : Memory) : (s.setPf m).script = s.script := rfl
@[simp] theorem State.setPf_turns (m : Memory) : (s.setPf m).turns = s.turns := rfl
@[simp] theorem State.setPf_replies (m : Memory) : (s.setPf m).replies = s.replies := rfl
@[simp] theorem State.setPf_sinkRoom (m : Memory) : (s.setPf m).sinkRoom = s.sinkRoom := rfl
@[simp] theorem State.setPf_resets (m : Memory) : (s.setPf m).resets = s.resets := rfl

/-! `State.setPfOrigin` -/

@[simp] theorem State.setPfOrigin_cfg : s.setPfOrigin.cfg = s.cfg := rfl
@[simp] theorem State.setPfOrigin_ctrl : s.setPfOrigin.ctrl = s.ctrl := rfl
@[simp] theorem State.setPfOrigin_status : s.setPfOrigin.status = s.status := rfl
@[simp] theorem State.setPfOrigin_scrollX : s.setPfOrigin.scrollX = s.scrollX := rfl
@[simp] theorem State.setPfOrigin_scrollY : s.setPfOrigin.scrollY = s.scrollY := rfl
@[simp] theorem State.setPfOrigin_objCount : s.setPfOrigin.objCount = s.objCount := rfl
@[simp] theorem State.setPfOrigin_faultCode : s.setPfOrigin.faultCode = s.faultCode := rfl
@[simp] theorem State.setPfOrigin_faultInfo : s.setPfOrigin.faultInfo = s.faultInfo := rfl
@[simp] theorem State.setPfOrigin_faultLoc : s.setPfOrigin.faultLoc = s.faultLoc := rfl
@[simp] theorem State.setPfOrigin_pfOrigin : s.setPfOrigin.pfOrigin = BitVec.ofNat 13 s.tY := rfl
@[simp] theorem State.setPfOrigin_sequencer : s.setPfOrigin.sequencer = s.sequencer := rfl
@[simp] theorem State.setPfOrigin_pf : s.setPfOrigin.pf = s.pf := rfl
@[simp] theorem State.setPfOrigin_obj : s.setPfOrigin.obj = s.obj := rfl
@[simp] theorem State.setPfOrigin_strip : s.setPfOrigin.strip = s.strip := rfl
@[simp] theorem State.setPfOrigin_pages : s.setPfOrigin.pages = s.pages := rfl
@[simp] theorem State.setPfOrigin_faulted : s.setPfOrigin.faulted = s.faulted := rfl
@[simp] theorem State.setPfOrigin_script : s.setPfOrigin.script = s.script := rfl
@[simp] theorem State.setPfOrigin_turns : s.setPfOrigin.turns = s.turns := rfl
@[simp] theorem State.setPfOrigin_replies : s.setPfOrigin.replies = s.replies := rfl
@[simp] theorem State.setPfOrigin_sinkRoom : s.setPfOrigin.sinkRoom = s.sinkRoom := rfl
@[simp] theorem State.setPfOrigin_resets : s.setPfOrigin.resets = s.resets := rfl

/-! `State.markPfValid` -/

@[simp] theorem State.markPfValid_cfg : s.markPfValid.cfg = s.cfg := rfl
@[simp] theorem State.markPfValid_ctrl : s.markPfValid.ctrl = s.ctrl := rfl
@[simp] theorem State.markPfValid_status : s.markPfValid.status = { s.status with pfValid := true } := rfl
@[simp] theorem State.markPfValid_scrollX : s.markPfValid.scrollX = s.scrollX := rfl
@[simp] theorem State.markPfValid_scrollY : s.markPfValid.scrollY = s.scrollY := rfl
@[simp] theorem State.markPfValid_objCount : s.markPfValid.objCount = s.objCount := rfl
@[simp] theorem State.markPfValid_faultCode : s.markPfValid.faultCode = s.faultCode := rfl
@[simp] theorem State.markPfValid_faultInfo : s.markPfValid.faultInfo = s.faultInfo := rfl
@[simp] theorem State.markPfValid_faultLoc : s.markPfValid.faultLoc = s.faultLoc := rfl
@[simp] theorem State.markPfValid_pfOrigin : s.markPfValid.pfOrigin = s.pfOrigin := rfl
@[simp] theorem State.markPfValid_sequencer : s.markPfValid.sequencer = s.sequencer := rfl
@[simp] theorem State.markPfValid_pf : s.markPfValid.pf = s.pf := rfl
@[simp] theorem State.markPfValid_obj : s.markPfValid.obj = s.obj := rfl
@[simp] theorem State.markPfValid_strip : s.markPfValid.strip = s.strip := rfl
@[simp] theorem State.markPfValid_pages : s.markPfValid.pages = s.pages := rfl
@[simp] theorem State.markPfValid_faulted : s.markPfValid.faulted = s.faulted := rfl
@[simp] theorem State.markPfValid_script : s.markPfValid.script = s.script := rfl
@[simp] theorem State.markPfValid_turns : s.markPfValid.turns = s.turns := rfl
@[simp] theorem State.markPfValid_replies : s.markPfValid.replies = s.replies := rfl
@[simp] theorem State.markPfValid_sinkRoom : s.markPfValid.sinkRoom = s.sinkRoom := rfl
@[simp] theorem State.markPfValid_resets : s.markPfValid.resets = s.resets := rfl

/-! `State.markStripValid` -/

@[simp] theorem State.markStripValid_cfg : s.markStripValid.cfg = s.cfg := rfl
@[simp] theorem State.markStripValid_ctrl : s.markStripValid.ctrl = s.ctrl := rfl
@[simp] theorem State.markStripValid_status : s.markStripValid.status = { s.status with stripValid := true } := rfl
@[simp] theorem State.markStripValid_scrollX : s.markStripValid.scrollX = s.scrollX := rfl
@[simp] theorem State.markStripValid_scrollY : s.markStripValid.scrollY = s.scrollY := rfl
@[simp] theorem State.markStripValid_objCount : s.markStripValid.objCount = s.objCount := rfl
@[simp] theorem State.markStripValid_faultCode : s.markStripValid.faultCode = s.faultCode := rfl
@[simp] theorem State.markStripValid_faultInfo : s.markStripValid.faultInfo = s.faultInfo := rfl
@[simp] theorem State.markStripValid_faultLoc : s.markStripValid.faultLoc = s.faultLoc := rfl
@[simp] theorem State.markStripValid_pfOrigin : s.markStripValid.pfOrigin = s.pfOrigin := rfl
@[simp] theorem State.markStripValid_sequencer : s.markStripValid.sequencer = s.sequencer := rfl
@[simp] theorem State.markStripValid_pf : s.markStripValid.pf = s.pf := rfl
@[simp] theorem State.markStripValid_obj : s.markStripValid.obj = s.obj := rfl
@[simp] theorem State.markStripValid_strip : s.markStripValid.strip = s.strip := rfl
@[simp] theorem State.markStripValid_pages : s.markStripValid.pages = s.pages := rfl
@[simp] theorem State.markStripValid_faulted : s.markStripValid.faulted = s.faulted := rfl
@[simp] theorem State.markStripValid_script : s.markStripValid.script = s.script := rfl
@[simp] theorem State.markStripValid_turns : s.markStripValid.turns = s.turns := rfl
@[simp] theorem State.markStripValid_replies : s.markStripValid.replies = s.replies := rfl
@[simp] theorem State.markStripValid_sinkRoom : s.markStripValid.sinkRoom = s.sinkRoom := rfl
@[simp] theorem State.markStripValid_resets : s.markStripValid.resets = s.resets := rfl

/-! `State.dropWrite` -/

@[simp] theorem State.dropWrite_cfg : s.dropWrite.cfg = s.cfg := rfl
@[simp] theorem State.dropWrite_ctrl : s.dropWrite.ctrl = s.ctrl := rfl
@[simp] theorem State.dropWrite_status : s.dropWrite.status = { s.status with wrIgnored := true } := rfl
@[simp] theorem State.dropWrite_scrollX : s.dropWrite.scrollX = s.scrollX := rfl
@[simp] theorem State.dropWrite_scrollY : s.dropWrite.scrollY = s.scrollY := rfl
@[simp] theorem State.dropWrite_objCount : s.dropWrite.objCount = s.objCount := rfl
@[simp] theorem State.dropWrite_faultCode : s.dropWrite.faultCode = s.faultCode := rfl
@[simp] theorem State.dropWrite_faultInfo : s.dropWrite.faultInfo = s.faultInfo := rfl
@[simp] theorem State.dropWrite_faultLoc : s.dropWrite.faultLoc = s.faultLoc := rfl
@[simp] theorem State.dropWrite_pfOrigin : s.dropWrite.pfOrigin = s.pfOrigin := rfl
@[simp] theorem State.dropWrite_sequencer : s.dropWrite.sequencer = s.sequencer := rfl
@[simp] theorem State.dropWrite_pf : s.dropWrite.pf = s.pf := rfl
@[simp] theorem State.dropWrite_obj : s.dropWrite.obj = s.obj := rfl
@[simp] theorem State.dropWrite_strip : s.dropWrite.strip = s.strip := rfl
@[simp] theorem State.dropWrite_pages : s.dropWrite.pages = s.pages := rfl
@[simp] theorem State.dropWrite_faulted : s.dropWrite.faulted = s.faulted := rfl
@[simp] theorem State.dropWrite_script : s.dropWrite.script = s.script := rfl
@[simp] theorem State.dropWrite_turns : s.dropWrite.turns = s.turns := rfl
@[simp] theorem State.dropWrite_replies : s.dropWrite.replies = s.replies := rfl
@[simp] theorem State.dropWrite_sinkRoom : s.dropWrite.sinkRoom = s.sinkRoom := rfl
@[simp] theorem State.dropWrite_resets : s.dropWrite.resets = s.resets := rfl

/-! `State.emitPage` -/

@[simp] theorem State.emitPage_cfg (p : Page) : (s.emitPage p).cfg = s.cfg := rfl
@[simp] theorem State.emitPage_ctrl (p : Page) : (s.emitPage p).ctrl = s.ctrl := rfl
@[simp] theorem State.emitPage_status (p : Page) : (s.emitPage p).status = s.status := rfl
@[simp] theorem State.emitPage_scrollX (p : Page) : (s.emitPage p).scrollX = s.scrollX := rfl
@[simp] theorem State.emitPage_scrollY (p : Page) : (s.emitPage p).scrollY = s.scrollY := rfl
@[simp] theorem State.emitPage_objCount (p : Page) : (s.emitPage p).objCount = s.objCount := rfl
@[simp] theorem State.emitPage_faultCode (p : Page) : (s.emitPage p).faultCode = s.faultCode := rfl
@[simp] theorem State.emitPage_faultInfo (p : Page) : (s.emitPage p).faultInfo = s.faultInfo := rfl
@[simp] theorem State.emitPage_faultLoc (p : Page) : (s.emitPage p).faultLoc = s.faultLoc := rfl
@[simp] theorem State.emitPage_pfOrigin (p : Page) : (s.emitPage p).pfOrigin = s.pfOrigin := rfl
@[simp] theorem State.emitPage_sequencer (p : Page) : (s.emitPage p).sequencer = s.sequencer := rfl
@[simp] theorem State.emitPage_pf (p : Page) : (s.emitPage p).pf = s.pf := rfl
@[simp] theorem State.emitPage_obj (p : Page) : (s.emitPage p).obj = s.obj := rfl
@[simp] theorem State.emitPage_strip (p : Page) : (s.emitPage p).strip = s.strip := rfl
@[simp] theorem State.emitPage_pages (p : Page) : (s.emitPage p).pages = s.pages ++ [p] := rfl
@[simp] theorem State.emitPage_faulted (p : Page) : (s.emitPage p).faulted = s.faulted := rfl
@[simp] theorem State.emitPage_script (p : Page) : (s.emitPage p).script = s.script := rfl
@[simp] theorem State.emitPage_turns (p : Page) : (s.emitPage p).turns = s.turns := rfl
@[simp] theorem State.emitPage_replies (p : Page) : (s.emitPage p).replies = s.replies := rfl
@[simp] theorem State.emitPage_sinkRoom (p : Page) : (s.emitPage p).sinkRoom = s.sinkRoom.map (· - 1) := rfl
@[simp] theorem State.emitPage_resets (p : Page) : (s.emitPage p).resets = s.resets := rfl

/-! `State.accept` -/

@[simp] theorem State.accept_cfg (w : Word) : (s.accept w).cfg = s.cfg := rfl
@[simp] theorem State.accept_ctrl (w : Word) : (s.accept w).ctrl = s.ctrl := rfl
@[simp] theorem State.accept_status (w : Word) : (s.accept w).status = { s.status with done := false } := rfl
@[simp] theorem State.accept_scrollX (w : Word) : (s.accept w).scrollX = s.scrollX := rfl
@[simp] theorem State.accept_scrollY (w : Word) : (s.accept w).scrollY = s.scrollY := rfl
@[simp] theorem State.accept_objCount (w : Word) : (s.accept w).objCount = s.objCount := rfl
@[simp] theorem State.accept_faultCode (w : Word) : (s.accept w).faultCode = s.faultCode := rfl
@[simp] theorem State.accept_faultInfo (w : Word) : (s.accept w).faultInfo = s.faultInfo := rfl
@[simp] theorem State.accept_faultLoc (w : Word) : (s.accept w).faultLoc = s.faultLoc := rfl
@[simp] theorem State.accept_pfOrigin (w : Word) : (s.accept w).pfOrigin = s.pfOrigin := rfl
@[simp] theorem State.accept_sequencer (w : Word) : (s.accept w).sequencer = some { word := w, strip := 0 } := rfl
@[simp] theorem State.accept_pf (w : Word) : (s.accept w).pf = s.pf := rfl
@[simp] theorem State.accept_obj (w : Word) : (s.accept w).obj = s.obj := rfl
@[simp] theorem State.accept_strip (w : Word) : (s.accept w).strip = s.strip := rfl
@[simp] theorem State.accept_pages (w : Word) : (s.accept w).pages = s.pages := rfl
@[simp] theorem State.accept_faulted (w : Word) : (s.accept w).faulted = s.faulted := rfl
@[simp] theorem State.accept_script (w : Word) : (s.accept w).script = s.script := rfl
@[simp] theorem State.accept_turns (w : Word) : (s.accept w).turns = s.turns := rfl
@[simp] theorem State.accept_replies (w : Word) : (s.accept w).replies = s.replies := rfl
@[simp] theorem State.accept_sinkRoom (w : Word) : (s.accept w).sinkRoom = s.sinkRoom := rfl
@[simp] theorem State.accept_resets (w : Word) : (s.accept w).resets = s.resets := rfl

/-! `State.complete` -/

@[simp] theorem State.complete_cfg : s.complete.cfg = s.cfg := rfl
@[simp] theorem State.complete_ctrl : s.complete.ctrl = s.ctrl := rfl
@[simp] theorem State.complete_status : s.complete.status = { s.status with done := true } := rfl
@[simp] theorem State.complete_scrollX : s.complete.scrollX = s.scrollX := rfl
@[simp] theorem State.complete_scrollY : s.complete.scrollY = s.scrollY := rfl
@[simp] theorem State.complete_objCount : s.complete.objCount = s.objCount := rfl
@[simp] theorem State.complete_faultCode : s.complete.faultCode = s.faultCode := rfl
@[simp] theorem State.complete_faultInfo : s.complete.faultInfo = s.faultInfo := rfl
@[simp] theorem State.complete_faultLoc : s.complete.faultLoc = s.faultLoc := rfl
@[simp] theorem State.complete_pfOrigin : s.complete.pfOrigin = s.pfOrigin := rfl
@[simp] theorem State.complete_sequencer : s.complete.sequencer = none := rfl
@[simp] theorem State.complete_pf : s.complete.pf = s.pf := rfl
@[simp] theorem State.complete_obj : s.complete.obj = s.obj := rfl
@[simp] theorem State.complete_strip : s.complete.strip = s.strip := rfl
@[simp] theorem State.complete_pages : s.complete.pages = s.pages := rfl
@[simp] theorem State.complete_faulted : s.complete.faulted = s.faulted := rfl
@[simp] theorem State.complete_script : s.complete.script = s.script := rfl
@[simp] theorem State.complete_turns : s.complete.turns = s.turns := rfl
@[simp] theorem State.complete_replies : s.complete.replies = s.replies := rfl
@[simp] theorem State.complete_sinkRoom : s.complete.sinkRoom = s.sinkRoom := rfl
@[simp] theorem State.complete_resets : s.complete.resets = s.resets := rfl

/-! `State.raiseFault` -/

@[simp] theorem State.raiseFault_cfg (op : Byte) (code : FaultCode) (info loc : Word) :
    (s.raiseFault op code info loc).cfg = s.cfg := rfl
@[simp] theorem State.raiseFault_ctrl (op : Byte) (code : FaultCode) (info loc : Word) :
    (s.raiseFault op code info loc).ctrl = s.ctrl := rfl
@[simp] theorem State.raiseFault_status (op : Byte) (code : FaultCode) (info loc : Word) :
    (s.raiseFault op code info loc).status = { s.status with fault := true } := rfl
@[simp] theorem State.raiseFault_scrollX (op : Byte) (code : FaultCode) (info loc : Word) :
    (s.raiseFault op code info loc).scrollX = s.scrollX := rfl
@[simp] theorem State.raiseFault_scrollY (op : Byte) (code : FaultCode) (info loc : Word) :
    (s.raiseFault op code info loc).scrollY = s.scrollY := rfl
@[simp] theorem State.raiseFault_objCount (op : Byte) (code : FaultCode) (info loc : Word) :
    (s.raiseFault op code info loc).objCount = s.objCount := rfl
@[simp] theorem State.raiseFault_faultCode (op : Byte) (code : FaultCode) (info loc : Word) :
    (s.raiseFault op code info loc).faultCode = faultCodeWord op code := rfl
@[simp] theorem State.raiseFault_faultInfo (op : Byte) (code : FaultCode) (info loc : Word) :
    (s.raiseFault op code info loc).faultInfo = info := rfl
@[simp] theorem State.raiseFault_faultLoc (op : Byte) (code : FaultCode) (info loc : Word) :
    (s.raiseFault op code info loc).faultLoc = loc := rfl
@[simp] theorem State.raiseFault_pfOrigin (op : Byte) (code : FaultCode) (info loc : Word) :
    (s.raiseFault op code info loc).pfOrigin = s.pfOrigin := rfl
@[simp] theorem State.raiseFault_sequencer (op : Byte) (code : FaultCode) (info loc : Word) :
    (s.raiseFault op code info loc).sequencer = none := rfl
@[simp] theorem State.raiseFault_pf (op : Byte) (code : FaultCode) (info loc : Word) :
    (s.raiseFault op code info loc).pf = s.pf := rfl
@[simp] theorem State.raiseFault_obj (op : Byte) (code : FaultCode) (info loc : Word) :
    (s.raiseFault op code info loc).obj = s.obj := rfl
@[simp] theorem State.raiseFault_strip (op : Byte) (code : FaultCode) (info loc : Word) :
    (s.raiseFault op code info loc).strip = s.strip := rfl
@[simp] theorem State.raiseFault_pages (op : Byte) (code : FaultCode) (info loc : Word) :
    (s.raiseFault op code info loc).pages = s.pages := rfl
@[simp] theorem State.raiseFault_faulted (op : Byte) (code : FaultCode) (info loc : Word) :
    (s.raiseFault op code info loc).faulted = true := rfl
@[simp] theorem State.raiseFault_script (op : Byte) (code : FaultCode) (info loc : Word) :
    (s.raiseFault op code info loc).script = s.script := rfl
@[simp] theorem State.raiseFault_turns (op : Byte) (code : FaultCode) (info loc : Word) :
    (s.raiseFault op code info loc).turns = s.turns := rfl
@[simp] theorem State.raiseFault_replies (op : Byte) (code : FaultCode) (info loc : Word) :
    (s.raiseFault op code info loc).replies = s.replies := rfl
@[simp] theorem State.raiseFault_sinkRoom (op : Byte) (code : FaultCode) (info loc : Word) :
    (s.raiseFault op code info loc).sinkRoom = s.sinkRoom := rfl
@[simp] theorem State.raiseFault_resets (op : Byte) (code : FaultCode) (info loc : Word) :
    (s.raiseFault op code info loc).resets = s.resets := rfl

/-! `State.statusWrite` -/

@[simp] theorem State.statusWrite_cfg (v : Word) : (s.statusWrite v).cfg = s.cfg := rfl
@[simp] theorem State.statusWrite_ctrl (v : Word) : (s.statusWrite v).ctrl = s.ctrl := rfl
@[simp] theorem State.statusWrite_status (v : Word) : (s.statusWrite v).status = s.status.clear v := rfl
@[simp] theorem State.statusWrite_scrollX (v : Word) : (s.statusWrite v).scrollX = s.scrollX := rfl
@[simp] theorem State.statusWrite_scrollY (v : Word) : (s.statusWrite v).scrollY = s.scrollY := rfl
@[simp] theorem State.statusWrite_objCount (v : Word) : (s.statusWrite v).objCount = s.objCount := rfl
@[simp] theorem State.statusWrite_faultCode (v : Word) : (s.statusWrite v).faultCode = s.faultCode := rfl
@[simp] theorem State.statusWrite_faultInfo (v : Word) : (s.statusWrite v).faultInfo = s.faultInfo := rfl
@[simp] theorem State.statusWrite_faultLoc (v : Word) : (s.statusWrite v).faultLoc = s.faultLoc := rfl
@[simp] theorem State.statusWrite_pfOrigin (v : Word) : (s.statusWrite v).pfOrigin = s.pfOrigin := rfl
@[simp] theorem State.statusWrite_sequencer (v : Word) : (s.statusWrite v).sequencer = s.sequencer := rfl
@[simp] theorem State.statusWrite_pf (v : Word) : (s.statusWrite v).pf = s.pf := rfl
@[simp] theorem State.statusWrite_obj (v : Word) : (s.statusWrite v).obj = s.obj := rfl
@[simp] theorem State.statusWrite_strip (v : Word) : (s.statusWrite v).strip = s.strip := rfl
@[simp] theorem State.statusWrite_pages (v : Word) : (s.statusWrite v).pages = s.pages := rfl
@[simp] theorem State.statusWrite_faulted (v : Word) : (s.statusWrite v).faulted = s.faulted := rfl
@[simp] theorem State.statusWrite_script (v : Word) : (s.statusWrite v).script = s.script := rfl
@[simp] theorem State.statusWrite_turns (v : Word) : (s.statusWrite v).turns = s.turns := rfl
@[simp] theorem State.statusWrite_replies (v : Word) : (s.statusWrite v).replies = s.replies := rfl
@[simp] theorem State.statusWrite_sinkRoom (v : Word) : (s.statusWrite v).sinkRoom = s.sinkRoom := rfl
@[simp] theorem State.statusWrite_resets (v : Word) : (s.statusWrite v).resets = s.resets := rfl

/-! `State.waitFor` -/

@[simp] theorem State.waitFor_cfg (w : Word) (k : Nat) (t : State) : (s.waitFor w k t).cfg = s.cfg := rfl
@[simp] theorem State.waitFor_ctrl (w : Word) (k : Nat) (t : State) : (s.waitFor w k t).ctrl = s.ctrl := rfl
@[simp] theorem State.waitFor_status (w : Word) (k : Nat) (t : State) : (s.waitFor w k t).status = s.status := rfl
@[simp] theorem State.waitFor_scrollX (w : Word) (k : Nat) (t : State) : (s.waitFor w k t).scrollX = s.scrollX := rfl
@[simp] theorem State.waitFor_scrollY (w : Word) (k : Nat) (t : State) : (s.waitFor w k t).scrollY = s.scrollY := rfl
@[simp] theorem State.waitFor_objCount (w : Word) (k : Nat) (t : State) :
    (s.waitFor w k t).objCount = s.objCount := rfl
@[simp] theorem State.waitFor_faultCode (w : Word) (k : Nat) (t : State) :
    (s.waitFor w k t).faultCode = s.faultCode := rfl
@[simp] theorem State.waitFor_faultInfo (w : Word) (k : Nat) (t : State) :
    (s.waitFor w k t).faultInfo = s.faultInfo := rfl
@[simp] theorem State.waitFor_faultLoc (w : Word) (k : Nat) (t : State) :
    (s.waitFor w k t).faultLoc = s.faultLoc := rfl
@[simp] theorem State.waitFor_pfOrigin (w : Word) (k : Nat) (t : State) :
    (s.waitFor w k t).pfOrigin = s.pfOrigin := rfl
@[simp] theorem State.waitFor_sequencer (w : Word) (k : Nat) (t : State) :
    (s.waitFor w k t).sequencer = some { word := w, strip := k } := rfl
@[simp] theorem State.waitFor_pf (w : Word) (k : Nat) (t : State) : (s.waitFor w k t).pf = s.pf := rfl
@[simp] theorem State.waitFor_obj (w : Word) (k : Nat) (t : State) : (s.waitFor w k t).obj = s.obj := rfl
@[simp] theorem State.waitFor_strip (w : Word) (k : Nat) (t : State) : (s.waitFor w k t).strip = s.strip := rfl
@[simp] theorem State.waitFor_pages (w : Word) (k : Nat) (t : State) : (s.waitFor w k t).pages = t.pages := rfl
@[simp] theorem State.waitFor_faulted (w : Word) (k : Nat) (t : State) : (s.waitFor w k t).faulted = s.faulted := rfl
@[simp] theorem State.waitFor_script (w : Word) (k : Nat) (t : State) : (s.waitFor w k t).script = s.script := rfl
@[simp] theorem State.waitFor_turns (w : Word) (k : Nat) (t : State) : (s.waitFor w k t).turns = s.turns := rfl
@[simp] theorem State.waitFor_replies (w : Word) (k : Nat) (t : State) : (s.waitFor w k t).replies = s.replies := rfl
@[simp] theorem State.waitFor_sinkRoom (w : Word) (k : Nat) (t : State) :
    (s.waitFor w k t).sinkRoom = t.sinkRoom := rfl
@[simp] theorem State.waitFor_resets (w : Word) (k : Nat) (t : State) : (s.waitFor w k t).resets = s.resets := rfl

/-! `State.resetEvent` -/

@[simp] theorem State.resetEvent_cfg : s.resetEvent.cfg = s.cfg := rfl
@[simp] theorem State.resetEvent_ctrl : s.resetEvent.ctrl = (State.powerOn s.cfg).ctrl := rfl
@[simp] theorem State.resetEvent_status : s.resetEvent.status = (State.powerOn s.cfg).status := rfl
@[simp] theorem State.resetEvent_scrollX : s.resetEvent.scrollX = (State.powerOn s.cfg).scrollX := rfl
@[simp] theorem State.resetEvent_scrollY : s.resetEvent.scrollY = (State.powerOn s.cfg).scrollY := rfl
@[simp] theorem State.resetEvent_objCount : s.resetEvent.objCount = (State.powerOn s.cfg).objCount := rfl
@[simp] theorem State.resetEvent_faultCode : s.resetEvent.faultCode = (State.powerOn s.cfg).faultCode := rfl
@[simp] theorem State.resetEvent_faultInfo : s.resetEvent.faultInfo = (State.powerOn s.cfg).faultInfo := rfl
@[simp] theorem State.resetEvent_faultLoc : s.resetEvent.faultLoc = (State.powerOn s.cfg).faultLoc := rfl
@[simp] theorem State.resetEvent_pfOrigin : s.resetEvent.pfOrigin = (State.powerOn s.cfg).pfOrigin := rfl
@[simp] theorem State.resetEvent_sequencer : s.resetEvent.sequencer = (State.powerOn s.cfg).sequencer := rfl
@[simp] theorem State.resetEvent_pf : s.resetEvent.pf = (State.powerOn s.cfg).pf := rfl
@[simp] theorem State.resetEvent_obj : s.resetEvent.obj = (State.powerOn s.cfg).obj := rfl
@[simp] theorem State.resetEvent_strip : s.resetEvent.strip = (State.powerOn s.cfg).strip := rfl
@[simp] theorem State.resetEvent_pages : s.resetEvent.pages = (State.powerOn s.cfg).pages := rfl
@[simp] theorem State.resetEvent_faulted : s.resetEvent.faulted = (State.powerOn s.cfg).faulted := rfl
@[simp] theorem State.resetEvent_script : s.resetEvent.script = s.script := rfl
@[simp] theorem State.resetEvent_turns : s.resetEvent.turns = s.turns := rfl
@[simp] theorem State.resetEvent_replies : s.resetEvent.replies = s.replies := rfl
@[simp] theorem State.resetEvent_sinkRoom : s.resetEvent.sinkRoom = s.sinkRoom := rfl
@[simp] theorem State.resetEvent_resets : s.resetEvent.resets = s.resets + 1 := rfl

end Sys2Proof.Machine
end

