-- ==== Sys2Proof/Laws/Playfield.lean ====
section
/-! SUPPORT. RowLoad: what it writes and what it leaves alone. -/

namespace Sys2Proof.Machine

open Sys2Proof

/-- RowLoad writes the playfield alone. -/
theorem State.loadRows_eq (s : State) (ks : List Nat) : s.loadRows ks = s.setPf (s.loadRows ks).pf := by
  induction ks generalizing s with
  | nil => rfl
  | cons k ks ih => exact (ih (s.rowLoad k)).trans rfl

@[simp] theorem State.loadRows_cfg (s : State) (ks : List Nat) : (s.loadRows ks).cfg = s.cfg :=
  (congrArg State.cfg (s.loadRows_eq ks)).trans rfl
@[simp] theorem State.loadRows_ctrl (s : State) (ks : List Nat) : (s.loadRows ks).ctrl = s.ctrl :=
  (congrArg State.ctrl (s.loadRows_eq ks)).trans rfl
@[simp] theorem State.loadRows_status (s : State) (ks : List Nat) : (s.loadRows ks).status = s.status :=
  (congrArg State.status (s.loadRows_eq ks)).trans rfl
@[simp] theorem State.loadRows_scrollX (s : State) (ks : List Nat) : (s.loadRows ks).scrollX = s.scrollX :=
  (congrArg State.scrollX (s.loadRows_eq ks)).trans rfl
@[simp] theorem State.loadRows_scrollY (s : State) (ks : List Nat) : (s.loadRows ks).scrollY = s.scrollY :=
  (congrArg State.scrollY (s.loadRows_eq ks)).trans rfl
@[simp] theorem State.loadRows_objCount (s : State) (ks : List Nat) : (s.loadRows ks).objCount = s.objCount :=
  (congrArg State.objCount (s.loadRows_eq ks)).trans rfl
@[simp] theorem State.loadRows_faultCode (s : State) (ks : List Nat) : (s.loadRows ks).faultCode = s.faultCode :=
  (congrArg State.faultCode (s.loadRows_eq ks)).trans rfl
@[simp] theorem State.loadRows_faultInfo (s : State) (ks : List Nat) : (s.loadRows ks).faultInfo = s.faultInfo :=
  (congrArg State.faultInfo (s.loadRows_eq ks)).trans rfl
@[simp] theorem State.loadRows_faultLoc (s : State) (ks : List Nat) : (s.loadRows ks).faultLoc = s.faultLoc :=
  (congrArg State.faultLoc (s.loadRows_eq ks)).trans rfl
@[simp] theorem State.loadRows_pfOrigin (s : State) (ks : List Nat) : (s.loadRows ks).pfOrigin = s.pfOrigin :=
  (congrArg State.pfOrigin (s.loadRows_eq ks)).trans rfl
@[simp] theorem State.loadRows_sequencer (s : State) (ks : List Nat) : (s.loadRows ks).sequencer = s.sequencer :=
  (congrArg State.sequencer (s.loadRows_eq ks)).trans rfl
@[simp] theorem State.loadRows_obj (s : State) (ks : List Nat) : (s.loadRows ks).obj = s.obj :=
  (congrArg State.obj (s.loadRows_eq ks)).trans rfl
@[simp] theorem State.loadRows_strip (s : State) (ks : List Nat) : (s.loadRows ks).strip = s.strip :=
  (congrArg State.strip (s.loadRows_eq ks)).trans rfl
@[simp] theorem State.loadRows_pages (s : State) (ks : List Nat) : (s.loadRows ks).pages = s.pages :=
  (congrArg State.pages (s.loadRows_eq ks)).trans rfl
@[simp] theorem State.loadRows_faulted (s : State) (ks : List Nat) : (s.loadRows ks).faulted = s.faulted :=
  (congrArg State.faulted (s.loadRows_eq ks)).trans rfl
@[simp] theorem State.loadRows_script (s : State) (ks : List Nat) : (s.loadRows ks).script = s.script :=
  (congrArg State.script (s.loadRows_eq ks)).trans rfl
@[simp] theorem State.loadRows_turns (s : State) (ks : List Nat) : (s.loadRows ks).turns = s.turns :=
  (congrArg State.turns (s.loadRows_eq ks)).trans rfl
@[simp] theorem State.loadRows_replies (s : State) (ks : List Nat) : (s.loadRows ks).replies = s.replies :=
  (congrArg State.replies (s.loadRows_eq ks)).trans rfl
@[simp] theorem State.loadRows_sinkRoom (s : State) (ks : List Nat) : (s.loadRows ks).sinkRoom = s.sinkRoom :=
  (congrArg State.sinkRoom (s.loadRows_eq ks)).trans rfl
@[simp] theorem State.loadRows_resets (s : State) (ks : List Nat) : (s.loadRows ks).resets = s.resets :=
  (congrArg State.resets (s.loadRows_eq ks)).trans rfl

@[simp] theorem State.loadRows_nil (s : State) : s.loadRows [] = s := rfl

theorem State.loadRows_cons (s : State) (k : Nat) (ks : List Nat) :
    s.loadRows (k :: ks) = (s.rowLoad k).loadRows ks := rfl

theorem State.loadRows_append (s : State) (ks ls : List Nat) :
    s.loadRows (ks ++ ls) = (s.loadRows ks).loadRows ls := by
  simp [State.loadRows, List.foldl_append]

/-- The address of cell (r, c) determines the row and the column. -/
theorem cellAddr_inj {n r c r' c' : Nat} (hc : c < n) (hc' : c' < n) (h : r * n + c = r' * n + c') :
    r = r' ∧ c = c' := by
  have hr : r = r' := by
    have h1 : (r * n + c) / n = r := by rw [Nat.mul_comm, Nat.mul_add_div (by omega), Nat.div_eq_of_lt hc]; rfl
    have h2 : (r' * n + c') / n = r' := by rw [Nat.mul_comm, Nat.mul_add_div (by omega), Nat.div_eq_of_lt hc']; rfl
    rw [← h1, h, h2]
  subst hr
  exact ⟨rfl, by omega⟩

/-- What RowLoad of logical row `k` leaves at cell (r, c): the map's index in its own row, the old index elsewhere. -/
theorem State.rowLoad_read (s : State) (k r c : Nat) (hc : c < s.cfg.cols) :
    (s.rowLoad k).pf.read (r * s.cfg.cols + c) =
      if r = s.physRow k then some (mapByte s.cfg (s.mapRow k) c) else s.pf.read (r * s.cfg.cols + c) := by
  simp only [State.rowLoad, State.setPf_pf, rowCells, Memory.read_writeAll_range]
  by_cases h : r = s.physRow k
  · subst h; rw [if_pos ⟨by omega, by omega⟩, if_pos rfl]; simp
  · rw [if_neg h, if_neg]
    rintro ⟨h1, h2⟩
    have := cellAddr_inj (n := s.cfg.cols) (r := r) (r' := s.physRow k) (c := c)
      (c' := r * s.cfg.cols + c - s.physRow k * s.cfg.cols) hc (by omega) (by omega)
    exact h this.1

theorem State.rowLoad_cell (s : State) (k r c : Nat) (hc : c < s.cfg.cols) :
    (s.rowLoad k).cell r c = if r = s.physRow k then mapByte s.cfg (s.mapRow k) c else s.cell r c := by
  have h := s.rowLoad_read k r c hc
  simp only [State.cell, State.pfByte]
  rw [show (s.rowLoad k).cfg = s.cfg from rfl, h]
  split <;> simp_all [State.rowLoad]

@[simp] theorem State.loadRows_physRow (s : State) (ks : List Nat) (k : Nat) :
    (s.loadRows ks).physRow k = s.physRow k := by simp [State.physRow, State.tY]

@[simp] theorem State.loadRows_mapRow (s : State) (ks : List Nat) (k : Nat) :
    (s.loadRows ks).mapRow k = s.mapRow k := by simp [State.mapRow, State.tY]

/-- What a list of RowLoads leaves at cell (r, c), where the list loads each physical row from one map row only. -/
theorem State.loadRows_cell (s : State) (ks : List Nat) (r c : Nat) (hc : c < s.cfg.cols)
    (hks : ∀ k ∈ ks, ∀ l ∈ ks, s.physRow k = s.physRow l → k = l) :
    (∀ k ∈ ks, s.physRow k = r → (s.loadRows ks).cell r c = mapByte s.cfg (s.mapRow k) c) ∧
      ((∀ k ∈ ks, s.physRow k ≠ r) → (s.loadRows ks).cell r c = s.cell r c) := by
  induction ks generalizing s with
  | nil => exact ⟨by simp, fun _ => rfl⟩
  | cons k ks ih =>
    have hk : ∀ l ∈ ks, ∀ l' ∈ ks, (s.rowLoad k).physRow l = (s.rowLoad k).physRow l' → l = l' :=
      fun l hl l' hl' => hks l (by simp [hl]) l' (by simp [hl'])
    obtain ⟨h1, h2⟩ := ih (s.rowLoad k) hc hk
    constructor
    · intro l hl hr
      rw [State.loadRows_cons]
      by_cases hmem : l ∈ ks
      · exact h1 l hmem hr
      · have hlk : l = k := by simpa [hmem] using hl
        subst hlk
        rw [h2 ?_, State.rowLoad_cell _ _ _ _ hc, if_pos hr.symm]
        intro l' hl' hr'
        have := hks l' (by simp [hl']) l (by simp) (hr'.trans hr.symm)
        exact hmem (this ▸ hl')
    · intro hne
      rw [State.loadRows_cons, h2 fun l hl => hne l (by simp [hl]), State.rowLoad_cell _ _ _ _ hc,
        if_neg fun h => hne k (by simp) h.symm]

/-- RowLoads keep the canonical form. -/
theorem State.loadRows_pf_wf (s : State) (ks : List Nat) (h : s.pf.wf = true) : (s.loadRows ks).pf.wf = true := by
  induction ks generalizing s with
  | nil => exact h
  | cons k ks ih => exact ih _ (Memory.wf_writeAll _ h)

/-- RowLoads list cells of the torus only. -/
theorem State.loadRows_pf_range (s : State) (ks : List Nat)
    (h : ∀ a, (s.pf.read a).isSome → a < s.cfg.rows * s.cfg.cols) :
    ∀ a, ((s.loadRows ks).pf.read a).isSome → a < s.cfg.rows * s.cfg.cols := by
  induction ks generalizing s with
  | nil => exact h
  | cons k ks ih =>
    refine ih (s.rowLoad k) fun a ha => ?_
    rcases Memory.isSome_writeAll ha with ha | ⟨c, hc, rfl⟩
    · exact h a ha
    · simp only [rowCells, List.mem_map, List.mem_range] at hc
      obtain ⟨c, hc, rfl⟩ := hc
      have hp : s.physRow k < s.cfg.rows := Nat.mod_lt _ (by simp [Config.rows])
      calc s.physRow k * s.cfg.cols + c < s.physRow k * s.cfg.cols + s.cfg.cols := by omega
        _ = (s.physRow k + 1) * s.cfg.cols := by rw [Nat.succ_mul]
        _ ≤ s.cfg.rows * s.cfg.cols := Nat.mul_le_mul_right _ hp

/-- RowLoads never take a cell off the list. -/
theorem State.loadRows_isSome (s : State) (ks : List Nat) (a : Nat) (h : (s.pf.read a).isSome) :
    ((s.loadRows ks).pf.read a).isSome := by
  induction ks generalizing s with
  | nil => exact h
  | cons k ks ih =>
    refine ih (s.rowLoad k) ?_
    simp only [State.rowLoad, State.setPf_pf, rowCells, Memory.read_writeAll_range]
    split
    · rfl
    · exact h

/-- A RowLoad of logical row `k` lists its whole physical row. -/
theorem State.loadRows_loaded (s : State) (ks : List Nat) {k c : Nat} (hk : k ∈ ks) (hc : c < s.cfg.cols) :
    ((s.loadRows ks).pf.read (s.physRow k * s.cfg.cols + c)).isSome := by
  induction ks generalizing s with
  | nil => cases hk
  | cons l ks ih =>
    rw [State.loadRows_cons]
    by_cases h : k ∈ ks
    · exact ih (s.rowLoad l) h hc
    · have : k = l := by simpa [h] using hk
      subst this
      refine State.loadRows_isSome _ _ _ ?_
      rw [State.rowLoad_read _ _ _ _ hc, if_pos rfl]; rfl

/-- Distinct logical rows of one view lie in distinct physical rows (rule R164). -/
theorem State.physRow_inj (s : State) {k l : Nat} (hk : k < s.cfg.rows) (hl : l < s.cfg.rows)
    (h : s.physRow k = s.physRow l) : k = l := by
  simp only [State.physRow] at h
  have h1 : (s.tY + k) % s.cfg.rows = (s.tY + l) % s.cfg.rows := h
  have h2 : k % s.cfg.rows = l % s.cfg.rows := Nat.ModEq.add_left_cancel' s.tY h1
  rwa [Nat.mod_eq_of_lt hk, Nat.mod_eq_of_lt hl] at h2

/-- Every physical row stores some logical row (rule R164). -/
theorem State.physRow_surj (s : State) {r : Nat} (hr : r < s.cfg.rows) :
    ∃ k, k < s.cfg.rows ∧ s.physRow k = r := by
  have hpos : 0 < s.cfg.rows := by omega
  refine ⟨(r + (s.cfg.rows - s.tY % s.cfg.rows)) % s.cfg.rows, Nat.mod_lt _ hpos, ?_⟩
  simp only [State.physRow]
  have hlt := Nat.mod_lt s.tY hpos
  rw [Nat.add_mod, Nat.mod_mod, ← Nat.add_mod]
  have hq := Nat.div_add_mod s.tY s.cfg.rows
  have : s.tY + (r + (s.cfg.rows - s.tY % s.cfg.rows)) = r + s.cfg.rows * (s.tY / s.cfg.rows + 1) := by
    rw [Nat.mul_add]; omega
  rw [this, Nat.add_mul_mod_self_left, Nat.mod_eq_of_lt hr]

end Sys2Proof.Machine
end

