-- ==== Sys2Proof/Laws/Strip.lean ====
section
/-! SUPPORT. The strip buffer: what filling it and drawing on it write, and what they leave alone. -/

namespace Sys2Proof.Machine

open Sys2Proof

/-! ### Filling -/

@[simp] theorem State.fillStrip_cfg (s : State) (f : Nat → Byte) : (s.fillStrip f).cfg = s.cfg := rfl
@[simp] theorem State.fillStrip_ctrl (s : State) (f : Nat → Byte) : (s.fillStrip f).ctrl = s.ctrl := rfl
@[simp] theorem State.fillStrip_scrollX (s : State) (f : Nat → Byte) : (s.fillStrip f).scrollX = s.scrollX := rfl
@[simp] theorem State.fillStrip_scrollY (s : State) (f : Nat → Byte) : (s.fillStrip f).scrollY = s.scrollY := rfl
@[simp] theorem State.fillStrip_objCount (s : State) (f : Nat → Byte) : (s.fillStrip f).objCount = s.objCount := rfl
@[simp] theorem State.fillStrip_faultCode (s : State) (f : Nat → Byte) : (s.fillStrip f).faultCode = s.faultCode :=
  rfl
@[simp] theorem State.fillStrip_faultInfo (s : State) (f : Nat → Byte) : (s.fillStrip f).faultInfo = s.faultInfo :=
  rfl
@[simp] theorem State.fillStrip_faultLoc (s : State) (f : Nat → Byte) : (s.fillStrip f).faultLoc = s.faultLoc := rfl
@[simp] theorem State.fillStrip_pfOrigin (s : State) (f : Nat → Byte) : (s.fillStrip f).pfOrigin = s.pfOrigin := rfl
@[simp] theorem State.fillStrip_sequencer (s : State) (f : Nat → Byte) : (s.fillStrip f).sequencer = s.sequencer :=
  rfl
@[simp] theorem State.fillStrip_pf (s : State) (f : Nat → Byte) : (s.fillStrip f).pf = s.pf := rfl
@[simp] theorem State.fillStrip_obj (s : State) (f : Nat → Byte) : (s.fillStrip f).obj = s.obj := rfl
@[simp] theorem State.fillStrip_pages (s : State) (f : Nat → Byte) : (s.fillStrip f).pages = s.pages := rfl
@[simp] theorem State.fillStrip_faulted (s : State) (f : Nat → Byte) : (s.fillStrip f).faulted = s.faulted := rfl
@[simp] theorem State.fillStrip_script (s : State) (f : Nat → Byte) : (s.fillStrip f).script = s.script := rfl
@[simp] theorem State.fillStrip_turns (s : State) (f : Nat → Byte) : (s.fillStrip f).turns = s.turns := rfl
@[simp] theorem State.fillStrip_replies (s : State) (f : Nat → Byte) : (s.fillStrip f).replies = s.replies := rfl
@[simp] theorem State.fillStrip_sinkRoom (s : State) (f : Nat → Byte) : (s.fillStrip f).sinkRoom = s.sinkRoom := rfl
@[simp] theorem State.fillStrip_resets (s : State) (f : Nat → Byte) : (s.fillStrip f).resets = s.resets := rfl
@[simp] theorem State.fillStrip_status (s : State) (f : Nat → Byte) :
    (s.fillStrip f).status = { s.status with stripValid := true } := rfl

/-- Filling writes every byte of the strip and nothing beyond (rules R211, R216). -/
theorem State.fillStrip_read (s : State) (f : Nat → Byte) (x : Nat) :
    (s.fillStrip f).strip.read x = if x < s.cfg.width then some (f x) else s.strip.read x := by
  have h := Memory.read_writeAll_range s.strip 0 s.cfg.width f x
  simp only [Nat.zero_add, Nat.zero_le, true_and, Nat.sub_zero] at h
  exact h

theorem State.fillStrip_stripByte (s : State) (f : Nat → Byte) (x : Nat) :
    (s.fillStrip f).stripByte x = if x < s.cfg.width then f x else s.stripByte x := by
  simp only [State.stripByte, State.fillStrip_read, State.fillStrip_resets]
  split <;> rfl

/-! ### Drawing -/

/-- Writing the strip buffer alone, twice, writes the strip buffer alone. -/
theorem State.onlyStrip_trans {s t u : State} (h1 : t = s.setStrip t.strip) (h2 : u = t.setStrip u.strip) :
    u = s.setStrip u.strip := by
  rw [h1] at h2
  exact h2

/-- A list of columns drawn writes the strip buffer alone. -/
theorem State.drawColumns_eq (t : Byte) (sx : Nat) (d : Int) (is : List Nat) (s : State) :
    is.foldl (State.drawColumn t sx d) s = s.setStrip (is.foldl (State.drawColumn t sx d) s).strip := by
  induction is generalizing s with
  | nil => rfl
  | cons i is ih => exact (ih (s.drawColumn t sx d i)).trans rfl

theorem State.drawObj_eq (strip : Nat) (s : State) (o : Obj) : s.drawObj strip o = s.setStrip (s.drawObj strip o).strip :=
  State.drawColumns_eq _ _ _ _ s

theorem State.drawEntry_eq (strip : Nat) (s : State) (k : Nat) :
    s.drawEntry strip k = s.setStrip (s.drawEntry strip k).strip := by
  simp only [State.drawEntry]
  split
  · split
    · exact State.drawObj_eq strip s _
    · rfl
  · rfl

theorem State.drawEntries_eq (strip : Nat) (ks : List Nat) (s : State) :
    ks.foldl (State.drawEntry strip) s = s.setStrip (ks.foldl (State.drawEntry strip) s).strip := by
  induction ks generalizing s with
  | nil => rfl
  | cons k ks ih => exact State.onlyStrip_trans (State.drawEntry_eq strip s k) (ih _)

/-- The draw pass writes the strip buffer alone (rule R188). -/
theorem State.drawAll_eq (strip : Nat) (s : State) : s.drawAll strip = s.setStrip (s.drawAll strip).strip :=
  State.drawEntries_eq strip _ s

@[simp] theorem State.drawObj_cfg (strip : Nat) (s : State) (o : Obj) : (s.drawObj strip o).cfg = s.cfg :=
  (congrArg State.cfg (State.drawObj_eq strip s o)).trans rfl
@[simp] theorem State.drawObj_ctrl (strip : Nat) (s : State) (o : Obj) : (s.drawObj strip o).ctrl = s.ctrl :=
  (congrArg State.ctrl (State.drawObj_eq strip s o)).trans rfl
@[simp] theorem State.drawObj_status (strip : Nat) (s : State) (o : Obj) : (s.drawObj strip o).status = s.status :=
  (congrArg State.status (State.drawObj_eq strip s o)).trans rfl
@[simp] theorem State.drawObj_scrollX (strip : Nat) (s : State) (o : Obj) : (s.drawObj strip o).scrollX = s.scrollX :=
  (congrArg State.scrollX (State.drawObj_eq strip s o)).trans rfl
@[simp] theorem State.drawObj_scrollY (strip : Nat) (s : State) (o : Obj) : (s.drawObj strip o).scrollY = s.scrollY :=
  (congrArg State.scrollY (State.drawObj_eq strip s o)).trans rfl
@[simp] theorem State.drawObj_objCount (strip : Nat) (s : State) (o : Obj) : (s.drawObj strip o).objCount = s.objCount :=
  (congrArg State.objCount (State.drawObj_eq strip s o)).trans rfl
@[simp] theorem State.drawObj_faultCode (strip : Nat) (s : State) (o : Obj) : (s.drawObj strip o).faultCode = s.faultCode :=
  (congrArg State.faultCode (State.drawObj_eq strip s o)).trans rfl
@[simp] theorem State.drawObj_faultInfo (strip : Nat) (s : State) (o : Obj) : (s.drawObj strip o).faultInfo = s.faultInfo :=
  (congrArg State.faultInfo (State.drawObj_eq strip s o)).trans rfl
@[simp] theorem State.drawObj_faultLoc (strip : Nat) (s : State) (o : Obj) : (s.drawObj strip o).faultLoc = s.faultLoc :=
  (congrArg State.faultLoc (State.drawObj_eq strip s o)).trans rfl
@[simp] theorem State.drawObj_pfOrigin (strip : Nat) (s : State) (o : Obj) : (s.drawObj strip o).pfOrigin = s.pfOrigin :=
  (congrArg State.pfOrigin (State.drawObj_eq strip s o)).trans rfl
@[simp] theorem State.drawObj_sequencer (strip : Nat) (s : State) (o : Obj) : (s.drawObj strip o).sequencer = s.sequencer :=
  (congrArg State.sequencer (State.drawObj_eq strip s o)).trans rfl
@[simp] theorem State.drawObj_pf (strip : Nat) (s : State) (o : Obj) : (s.drawObj strip o).pf = s.pf :=
  (congrArg State.pf (State.drawObj_eq strip s o)).trans rfl
@[simp] theorem State.drawObj_obj (strip : Nat) (s : State) (o : Obj) : (s.drawObj strip o).obj = s.obj :=
  (congrArg State.obj (State.drawObj_eq strip s o)).trans rfl
@[simp] theorem State.drawObj_pages (strip : Nat) (s : State) (o : Obj) : (s.drawObj strip o).pages = s.pages :=
  (congrArg State.pages (State.drawObj_eq strip s o)).trans rfl
@[simp] theorem State.drawObj_faulted (strip : Nat) (s : State) (o : Obj) : (s.drawObj strip o).faulted = s.faulted :=
  (congrArg State.faulted (State.drawObj_eq strip s o)).trans rfl
@[simp] theorem State.drawObj_script (strip : Nat) (s : State) (o : Obj) : (s.drawObj strip o).script = s.script :=
  (congrArg State.script (State.drawObj_eq strip s o)).trans rfl
@[simp] theorem State.drawObj_turns (strip : Nat) (s : State) (o : Obj) : (s.drawObj strip o).turns = s.turns :=
  (congrArg State.turns (State.drawObj_eq strip s o)).trans rfl
@[simp] theorem State.drawObj_replies (strip : Nat) (s : State) (o : Obj) : (s.drawObj strip o).replies = s.replies :=
  (congrArg State.replies (State.drawObj_eq strip s o)).trans rfl
@[simp] theorem State.drawObj_sinkRoom (strip : Nat) (s : State) (o : Obj) : (s.drawObj strip o).sinkRoom = s.sinkRoom :=
  (congrArg State.sinkRoom (State.drawObj_eq strip s o)).trans rfl
@[simp] theorem State.drawObj_resets (strip : Nat) (s : State) (o : Obj) : (s.drawObj strip o).resets = s.resets :=
  (congrArg State.resets (State.drawObj_eq strip s o)).trans rfl

@[simp] theorem State.drawEntry_cfg (strip : Nat) (s : State) (k : Nat) : (s.drawEntry strip k).cfg = s.cfg :=
  (congrArg State.cfg (State.drawEntry_eq strip s k)).trans rfl
@[simp] theorem State.drawEntry_ctrl (strip : Nat) (s : State) (k : Nat) : (s.drawEntry strip k).ctrl = s.ctrl :=
  (congrArg State.ctrl (State.drawEntry_eq strip s k)).trans rfl
@[simp] theorem State.drawEntry_status (strip : Nat) (s : State) (k : Nat) : (s.drawEntry strip k).status = s.status :=
  (congrArg State.status (State.drawEntry_eq strip s k)).trans rfl
@[simp] theorem State.drawEntry_scrollX (strip : Nat) (s : State) (k : Nat) : (s.drawEntry strip k).scrollX = s.scrollX :=
  (congrArg State.scrollX (State.drawEntry_eq strip s k)).trans rfl
@[simp] theorem State.drawEntry_scrollY (strip : Nat) (s : State) (k : Nat) : (s.drawEntry strip k).scrollY = s.scrollY :=
  (congrArg State.scrollY (State.drawEntry_eq strip s k)).trans rfl
@[simp] theorem State.drawEntry_objCount (strip : Nat) (s : State) (k : Nat) : (s.drawEntry strip k).objCount = s.objCount :=
  (congrArg State.objCount (State.drawEntry_eq strip s k)).trans rfl
@[simp] theorem State.drawEntry_faultCode (strip : Nat) (s : State) (k : Nat) : (s.drawEntry strip k).faultCode = s.faultCode :=
  (congrArg State.faultCode (State.drawEntry_eq strip s k)).trans rfl
@[simp] theorem State.drawEntry_faultInfo (strip : Nat) (s : State) (k : Nat) : (s.drawEntry strip k).faultInfo = s.faultInfo :=
  (congrArg State.faultInfo (State.drawEntry_eq strip s k)).trans rfl
@[simp] theorem State.drawEntry_faultLoc (strip : Nat) (s : State) (k : Nat) : (s.drawEntry strip k).faultLoc = s.faultLoc :=
  (congrArg State.faultLoc (State.drawEntry_eq strip s k)).trans rfl
@[simp] theorem State.drawEntry_pfOrigin (strip : Nat) (s : State) (k : Nat) : (s.drawEntry strip k).pfOrigin = s.pfOrigin :=
  (congrArg State.pfOrigin (State.drawEntry_eq strip s k)).trans rfl
@[simp] theorem State.drawEntry_sequencer (strip : Nat) (s : State) (k : Nat) : (s.drawEntry strip k).sequencer = s.sequencer :=
  (congrArg State.sequencer (State.drawEntry_eq strip s k)).trans rfl
@[simp] theorem State.drawEntry_pf (strip : Nat) (s : State) (k : Nat) : (s.drawEntry strip k).pf = s.pf :=
  (congrArg State.pf (State.drawEntry_eq strip s k)).trans rfl
@[simp] theorem State.drawEntry_obj (strip : Nat) (s : State) (k : Nat) : (s.drawEntry strip k).obj = s.obj :=
  (congrArg State.obj (State.drawEntry_eq strip s k)).trans rfl
@[simp] theorem State.drawEntry_pages (strip : Nat) (s : State) (k : Nat) : (s.drawEntry strip k).pages = s.pages :=
  (congrArg State.pages (State.drawEntry_eq strip s k)).trans rfl
@[simp] theorem State.drawEntry_faulted (strip : Nat) (s : State) (k : Nat) : (s.drawEntry strip k).faulted = s.faulted :=
  (congrArg State.faulted (State.drawEntry_eq strip s k)).trans rfl
@[simp] theorem State.drawEntry_script (strip : Nat) (s : State) (k : Nat) : (s.drawEntry strip k).script = s.script :=
  (congrArg State.script (State.drawEntry_eq strip s k)).trans rfl
@[simp] theorem State.drawEntry_turns (strip : Nat) (s : State) (k : Nat) : (s.drawEntry strip k).turns = s.turns :=
  (congrArg State.turns (State.drawEntry_eq strip s k)).trans rfl
@[simp] theorem State.drawEntry_replies (strip : Nat) (s : State) (k : Nat) : (s.drawEntry strip k).replies = s.replies :=
  (congrArg State.replies (State.drawEntry_eq strip s k)).trans rfl
@[simp] theorem State.drawEntry_sinkRoom (strip : Nat) (s : State) (k : Nat) : (s.drawEntry strip k).sinkRoom = s.sinkRoom :=
  (congrArg State.sinkRoom (State.drawEntry_eq strip s k)).trans rfl
@[simp] theorem State.drawEntry_resets (strip : Nat) (s : State) (k : Nat) : (s.drawEntry strip k).resets = s.resets :=
  (congrArg State.resets (State.drawEntry_eq strip s k)).trans rfl

@[simp] theorem State.drawAll_cfg (strip : Nat) (s : State) : (s.drawAll strip).cfg = s.cfg :=
  (congrArg State.cfg (State.drawAll_eq strip s)).trans rfl
@[simp] theorem State.drawAll_ctrl (strip : Nat) (s : State) : (s.drawAll strip).ctrl = s.ctrl :=
  (congrArg State.ctrl (State.drawAll_eq strip s)).trans rfl
@[simp] theorem State.drawAll_status (strip : Nat) (s : State) : (s.drawAll strip).status = s.status :=
  (congrArg State.status (State.drawAll_eq strip s)).trans rfl
@[simp] theorem State.drawAll_scrollX (strip : Nat) (s : State) : (s.drawAll strip).scrollX = s.scrollX :=
  (congrArg State.scrollX (State.drawAll_eq strip s)).trans rfl
@[simp] theorem State.drawAll_scrollY (strip : Nat) (s : State) : (s.drawAll strip).scrollY = s.scrollY :=
  (congrArg State.scrollY (State.drawAll_eq strip s)).trans rfl
@[simp] theorem State.drawAll_objCount (strip : Nat) (s : State) : (s.drawAll strip).objCount = s.objCount :=
  (congrArg State.objCount (State.drawAll_eq strip s)).trans rfl
@[simp] theorem State.drawAll_faultCode (strip : Nat) (s : State) : (s.drawAll strip).faultCode = s.faultCode :=
  (congrArg State.faultCode (State.drawAll_eq strip s)).trans rfl
@[simp] theorem State.drawAll_faultInfo (strip : Nat) (s : State) : (s.drawAll strip).faultInfo = s.faultInfo :=
  (congrArg State.faultInfo (State.drawAll_eq strip s)).trans rfl
@[simp] theorem State.drawAll_faultLoc (strip : Nat) (s : State) : (s.drawAll strip).faultLoc = s.faultLoc :=
  (congrArg State.faultLoc (State.drawAll_eq strip s)).trans rfl
@[simp] theorem State.drawAll_pfOrigin (strip : Nat) (s : State) : (s.drawAll strip).pfOrigin = s.pfOrigin :=
  (congrArg State.pfOrigin (State.drawAll_eq strip s)).trans rfl
@[simp] theorem State.drawAll_sequencer (strip : Nat) (s : State) : (s.drawAll strip).sequencer = s.sequencer :=
  (congrArg State.sequencer (State.drawAll_eq strip s)).trans rfl
@[simp] theorem State.drawAll_pf (strip : Nat) (s : State) : (s.drawAll strip).pf = s.pf :=
  (congrArg State.pf (State.drawAll_eq strip s)).trans rfl
@[simp] theorem State.drawAll_obj (strip : Nat) (s : State) : (s.drawAll strip).obj = s.obj :=
  (congrArg State.obj (State.drawAll_eq strip s)).trans rfl
@[simp] theorem State.drawAll_pages (strip : Nat) (s : State) : (s.drawAll strip).pages = s.pages :=
  (congrArg State.pages (State.drawAll_eq strip s)).trans rfl
@[simp] theorem State.drawAll_faulted (strip : Nat) (s : State) : (s.drawAll strip).faulted = s.faulted :=
  (congrArg State.faulted (State.drawAll_eq strip s)).trans rfl
@[simp] theorem State.drawAll_script (strip : Nat) (s : State) : (s.drawAll strip).script = s.script :=
  (congrArg State.script (State.drawAll_eq strip s)).trans rfl
@[simp] theorem State.drawAll_turns (strip : Nat) (s : State) : (s.drawAll strip).turns = s.turns :=
  (congrArg State.turns (State.drawAll_eq strip s)).trans rfl
@[simp] theorem State.drawAll_replies (strip : Nat) (s : State) : (s.drawAll strip).replies = s.replies :=
  (congrArg State.replies (State.drawAll_eq strip s)).trans rfl
@[simp] theorem State.drawAll_sinkRoom (strip : Nat) (s : State) : (s.drawAll strip).sinkRoom = s.sinkRoom :=
  (congrArg State.sinkRoom (State.drawAll_eq strip s)).trans rfl
@[simp] theorem State.drawAll_resets (strip : Nat) (s : State) : (s.drawAll strip).resets = s.resets :=
  (congrArg State.resets (State.drawAll_eq strip s)).trans rfl

@[simp] theorem State.drawColumn_stripByte (t : Byte) (sx : Nat) (d : Int) (s : State) (i x : Nat) :
    (s.drawColumn t sx d i).stripByte x =
      if x = sx + i then composite (s.stripByte x) (columnMP s.cfg t i d) else s.stripByte x := by
  simp only [State.drawColumn, State.stripByte, State.setStrip_strip, State.setStrip_resets, Memory.read_write]
  split
  · next h => subst h; rfl
  · rfl

/-- What drawing the first `n` columns of an entry leaves in byte `x`: one composition in its columns, nothing elsewhere
(rules R183, R185). -/
theorem State.drawColumns_stripByte (t : Byte) (sx : Nat) (d : Int) (n : Nat) (s : State) (x : Nat) :
    ((List.range n).foldl (State.drawColumn t sx d) s).stripByte x =
      if sx ≤ x ∧ x < sx + n then composite (s.stripByte x) (columnMP s.cfg t (x - sx) d) else s.stripByte x := by
  induction n with
  | zero => rw [if_neg (by omega)]; rfl
  | succ n ih =>
    have hcfg : ((List.range n).foldl (State.drawColumn t sx d) s).cfg = s.cfg :=
      (congrArg State.cfg (State.drawColumns_eq t sx d _ s)).trans rfl
    rw [List.range_succ, List.foldl_append, List.foldl_cons, List.foldl_nil, State.drawColumn_stripByte, ih, hcfg]
    by_cases h : x = sx + n
    · subst h
      rw [if_pos rfl, if_neg (by omega), if_pos (by omega), Nat.add_sub_cancel_left]
    · rw [if_neg h]
      by_cases h2 : sx ≤ x ∧ x < sx + n
      · rw [if_pos h2, if_pos (by omega)]
      · rw [if_neg h2, if_neg (by omega)]

/-- The byte `x` after one entry is drawn (rules R183, R185). -/
theorem State.drawObj_stripByte (strip : Nat) (s : State) (o : Obj) (x : Nat) :
    (s.drawObj strip o).stripByte x =
      if o.x.toNat ≤ x ∧ x < o.x.toNat + drawnWidth s.cfg o then
        composite (s.stripByte x) (columnMP s.cfg o.t (x - o.x.toNat) (stripOffset o strip))
      else s.stripByte x :=
  State.drawColumns_stripByte _ _ _ _ _ _

/-! ### What drawing keeps of the buffer's form -/

/-- A draw pass keeps what every single column write inside the strip keeps. -/
theorem State.drawAll_induct (strip : Nat) (s : State) (P : Memory → Prop) (h0 : P s.strip)
    (hw : ∀ m x v, x < s.cfg.width → P m → P (m.write x v)) : P (s.drawAll strip).strip := by
  have cols : ∀ (o : Obj) (n : Nat) (u : State), u.cfg = s.cfg → o.x.toNat + n ≤ s.cfg.width → P u.strip →
      P ((List.range n).foldl (State.drawColumn o.t o.x.toNat (stripOffset o strip)) u).strip := by
    intro o n
    induction n with
    | zero => intro u _ _ h; exact h
    | succ n ih =>
      intro u hu hn h
      rw [List.range_succ, List.foldl_append, List.foldl_cons, List.foldl_nil]
      exact hw _ _ _ (by omega) (ih u hu (by omega) h)
  have entry : ∀ (k : Nat) (u : State), u.cfg = s.cfg → P u.strip → P (u.drawEntry strip k).strip := by
    intro k u hu h
    simp only [State.drawEntry]
    split
    · next o _ =>
      split
      · next hv =>
        refine cols o _ u hu ?_ h
        simp only [visible, decide_eq_true_eq, hu] at hv
        simp only [drawnWidth, hu]
        omega
      · exact h
    · exact h
  have entries : ∀ (ks : List Nat) (u : State), u.cfg = s.cfg → P u.strip →
      P (ks.foldl (State.drawEntry strip) u).strip := by
    intro ks
    induction ks with
    | nil => intro u _ h; exact h
    | cons k ks ih => intro u hu h; exact ih _ (by simp [hu]) (entry k u hu h)
  exact entries _ s rfl h0

end Sys2Proof.Machine
end

