-- ==== Sys2Proof/Laws/Body.lean ====
section
/-! SUPPORT. How command bodies and commands end: the inversion lemmas every proof about `exec` cites. -/

namespace Sys2Proof.Machine

open Sys2Proof

/-! ### Checks and sequencing -/

@[simp] theorem check_true (s : State) (code : FaultCode) (info : Word) (b : Body) :
    check true s code info b = b := rfl

@[simp] theorem check_false (s : State) (code : FaultCode) (info : Word) (b : Body) :
    check false s code info b = .raised s code info 0 := rfl

@[simp] theorem Body.done_andThen (s : State) (f : State → Body) : (Body.done s).andThen f = f s := rfl

@[simp] theorem Body.raised_andThen (s : State) (code : FaultCode) (info loc : Word) (f : State → Body) :
    (Body.raised s code info loc).andThen f = .raised s code info loc := rfl

@[simp] theorem Body.stalled_andThen (s : State) (k : Nat) (f : State → Body) :
    (Body.stalled s k).andThen f = .stalled s k := rfl

@[simp] theorem Body.unwritten_andThen (k : Nat) (f : State → Body) :
    (Body.unwritten k).andThen f = .unwritten k := rfl

/-- A body that ran to its end through `andThen` ran to its end in both parts. -/
theorem Body.andThen_eq_done {b : Body} {f : State → Body} {t : State} (h : b.andThen f = .done t) :
    ∃ u, b = .done u ∧ f u = .done t := by
  cases b with
  | done u => exact ⟨u, rfl, h⟩
  | raised _ _ _ _ => cases h
  | stalled _ _ => cases h
  | unwritten _ => cases h

@[simp] theorem finish_done (w : Word) (s t : State) : finish w s (.done t) = .next t.complete := rfl

@[simp] theorem finish_raised (w : Word) (s t : State) (code : FaultCode) (info loc : Word) :
    finish w s (.raised t code info loc) = .next (t.raiseFault (wordOp w) code info loc) := rfl

@[simp] theorem finish_stalled (w : Word) (s t : State) (k : Nat) :
    finish w s (.stalled t k) = .next (s.waitFor w k t) := rfl

@[simp] theorem finish_unwritten (w : Word) (s : State) (k : Nat) :
    finish w s (.unwritten k) = .fault (.unwrittenObj k) := rfl

/-- A command never ends in a refusal. -/
theorem finish_ne_refused (w : Word) (s : State) (b : Body) (r : Refusal) : finish w s b ≠ .refused r := by
  cases b <;> exact fun h => nomatch h

/-- Every way a command's next state comes about (rules R256, R276, R291). -/
theorem finish_eq_next {w : Word} {s t : State} {b : Body} (h : finish w s b = .next t) :
    (∃ u, b = .done u ∧ t = u.complete) ∨
      (∃ u code info loc, b = .raised u code info loc ∧ t = u.raiseFault (wordOp w) code info loc) ∨
      (∃ u k, b = .stalled u k ∧ t = s.waitFor w k u) := by
  cases b with
  | done u => cases h; exact .inl ⟨u, rfl, rfl⟩
  | raised u code info loc => cases h; exact .inr (.inl ⟨u, code, info, loc, rfl, rfl⟩)
  | stalled u k => cases h; exact .inr (.inr ⟨u, k, rfl, rfl⟩)
  | unwritten k => cases h

/-! ### What the states inside a body satisfy -/

/-- Every state a body carries satisfies `P`. -/
def Body.All (P : State → Prop) : Body → Prop
  | .done s => P s
  | .raised s _ _ _ => P s
  | .stalled s _ => P s
  | .unwritten _ => True

theorem Body.All.andThen {P : State → Prop} {b : Body} {f : State → Body} (hb : b.All P)
    (hf : ∀ s, P s → (f s).All P) : (b.andThen f).All P := by
  cases b with
  | done s => exact hf s hb
  | raised _ _ _ _ => exact hb
  | stalled _ _ => exact hb
  | unwritten _ => trivial

theorem check_all {P : State → Prop} {ok : Bool} {s : State} {code : FaultCode} {info : Word} {b : Body} (hs : P s)
    (hb : b.All P) : (check ok s code info b).All P := by
  cases ok
  · exact hs
  · exact hb

theorem Body.All.mono {P Q : State → Prop} {b : Body} (h : ∀ s, P s → Q s) (hb : b.All P) : b.All Q := by
  cases b with
  | done s => exact h s hb
  | raised s _ _ _ => exact h s hb
  | stalled s _ => exact h s hb
  | unwritten _ => trivial

/-! ### What each sub-step can do -/

/-- STRIP_BG from its check pass on: a fault with nothing written, or the whole strip (rules R216, R279). -/
theorem stripBgBody_cases (k : Nat) (s : State) :
    (∃ rc, s.firstBadCell k = some rc ∧
        stripBgBody k s = .raised s .tileIndexOor (catBytes (BitVec.ofNat 8 k) (s.cell rc.1 rc.2))
          (BitVec.ofNat 16 (rc.1 * s.cfg.cols + rc.2))) ∨
      (s.firstBadCell k = none ∧ stripBgBody k s = .done (s.fillStrip (s.bgByte k))) := by
  unfold stripBgBody
  cases h : s.firstBadCell k with
  | some rc => exact .inl ⟨rc, rfl, rfl⟩
  | none => exact .inr ⟨rfl, rfl⟩

/-- STRIP_SPRITES from its check pass on: a fault with nothing written, or the whole draw pass (rules R60, R188, R279). -/
theorem stripSpritesBody_cases (k : Nat) (s : State) :
    (s.spriteCheck k = .pass ∧ stripSpritesBody k s = .done (s.drawAll k)) ∨
      (∃ j t, s.spriteCheck k = .bad j t ∧
        stripSpritesBody k s =
          .raised s .spriteIndexOor (catBytes (BitVec.ofNat 8 k) t) (BitVec.ofNat 16 j)) ∨
      (∃ j, s.spriteCheck k = .unwritten j ∧ stripSpritesBody k s = .unwritten j) := by
  unfold stripSpritesBody
  cases h : s.spriteCheck k with
  | pass => exact .inl ⟨rfl, rfl⟩
  | bad j t => exact .inr (.inl ⟨j, t, rfl, rfl⟩)
  | unwritten j => exact .inr (.inr ⟨j, rfl, rfl⟩)

/-- The emit line: a wait with nothing changed, or one page (rules R219, R291). -/
theorem stripEmitBody_cases (k : Nat) (s : State) :
    (s.sinkRoom = some 0 ∧ stripEmitBody k s = .stalled s k) ∨
      (s.sinkRoom ≠ some 0 ∧ stripEmitBody k s = .done (s.emitPage { index := k, bytes := s.stripBytes })) := by
  unfold stripEmitBody
  split
  · next h => exact .inl ⟨h, rfl⟩
  · next h => exact .inr ⟨h, rfl⟩

/-- What the strip commands' bodies do to a state, one update at a time: a property these keep, they keep. -/
structure RasterClosed (vr : Nat) (P : State → Prop) : Prop where
  fill : ∀ u f, P u → P (u.fillStrip f)
  draw : ∀ u k, P u → P (u.drawAll k)
  emit : ∀ u k, k < vr → u.sinkRoom ≠ some 0 → P u → P (u.emitPage { index := k, bytes := u.stripBytes })

theorem stripClearBody_all {vr : Nat} {P : State → Prop} (hP : RasterClosed vr P) {s : State} (hs : P s) :
    (stripClearBody s).All P := hP.fill _ _ hs

theorem stripBgBody_all {vr : Nat} {P : State → Prop} (hP : RasterClosed vr P) (k : Nat) {s : State} (hs : P s) :
    (stripBgBody k s).All P := by
  rcases stripBgBody_cases k s with ⟨rc, -, h⟩ | ⟨-, h⟩ <;> rw [h]
  · exact hs
  · exact hP.fill _ _ hs

theorem stripSpritesBody_all {vr : Nat} {P : State → Prop} (hP : RasterClosed vr P) (k : Nat) {s : State}
    (hs : P s) : (stripSpritesBody k s).All P := by
  rcases stripSpritesBody_cases k s with ⟨-, h⟩ | ⟨j, t, -, h⟩ | ⟨j, -, h⟩ <;> rw [h]
  · exact hP.draw _ _ hs
  · exact hs
  · trivial

theorem stripEmitBody_all {vr : Nat} {P : State → Prop} (hP : RasterClosed vr P) {k : Nat} (hk : k < vr)
    {s : State} (hs : P s) : (stripEmitBody k s).All P := by
  rcases stripEmitBody_cases k s with ⟨-, h⟩ | ⟨h0, h⟩ <;> rw [h]
  · exact hs
  · exact hP.emit _ _ hk h0 hs

theorem renderStripBody_all {vr : Nat} {P : State → Prop} (hP : RasterClosed vr P) {k : Nat} (hk : k < vr)
    {s : State} (hs : P s) : (renderStripBody k s).All P :=
  (((stripClearBody_all hP hs).andThen fun _ => stripBgBody_all hP k).andThen
    fun _ => stripSpritesBody_all hP k).andThen fun _ => stripEmitBody_all hP hk

theorem renderStrips_all {vr : Nat} {P : State → Prop} (hP : RasterClosed vr P) {ks : List Nat}
    (hks : ∀ k ∈ ks, k < vr) {s : State} (hs : P s) : (renderStrips ks s).All P := by
  induction ks generalizing s with
  | nil => exact hs
  | cons k ks ih =>
    exact (renderStripBody_all hP (hks k (by simp)) hs).andThen fun u hu => ih (fun l hl => hks l (by simp [hl])) hu

/-- The strips RENDER_FRAME renders are strips of the display (rule R221). -/
theorem State.stripsLeft_lt (s : State) : ∀ k ∈ s.stripsLeft, k < s.cfg.vr := fun k hk => by
  simpa using List.mem_of_mem_drop hk

/-- The commands that touch the strip buffer or the page port. -/
def isRaster : Instr → Bool
  | .nop _ | .pfReload _ | .pfAdjust _ => false
  | _ => true

/-- A strip command ends as `finish` says, of a body whose every state satisfies what the sub-steps keep. -/
theorem exec_raster {P : State → Prop} (i : Instr) (s : State) (hi : isRaster i = true)
    (hP : RasterClosed s.cfg.vr P) (hs : P s) : ∃ b, exec i s = finish (encode i) s b ∧ b.All P := by
  have lift : ∀ (arg : Byte) (body : Body), (arg.toNat < s.cfg.vr → body.All P) →
      (check (operandOk s.cfg .strip arg) s .badOperand (encode i) body).All P := by
    intro arg body h
    cases hok : operandOk s.cfg .strip arg
    · exact hs
    · exact h (by simpa [operandOk] using hok)
  cases i with
  | nop _ => cases hi
  | pfReload _ => cases hi
  | pfAdjust _ => cases hi
  | stripClear _ => exact ⟨_, rfl, check_all hs (stripClearBody_all hP hs)⟩
  | stripBg _ => exact ⟨_, rfl, lift _ _ fun _ => check_all hs (stripBgBody_all hP _ hs)⟩
  | stripSprites _ => exact ⟨_, rfl, lift _ _ fun _ => check_all hs (stripSpritesBody_all hP _ hs)⟩
  | stripEmit _ => exact ⟨_, rfl, lift _ _ fun h => check_all hs (stripEmitBody_all hP h hs)⟩
  | renderStrip _ => exact ⟨_, rfl, lift _ _ fun h => check_all hs (renderStripBody_all hP h hs)⟩
  | renderFrame _ =>
    exact ⟨_, rfl, check_all hs (check_all hs (renderStrips_all hP s.stripsLeft_lt hs))⟩

/-- NOP, PF_RELOAD and PF_ADJUST: a fault with nothing written, or their one body (rules R164, R166, R254). -/
theorem exec_not_raster (i : Instr) (s : State) (hi : isRaster i = false) :
    (∃ code info, exec i s = .next (s.raiseFault (wordOp (encode i)) code info 0)) ∨
      (∃ arg, i = .nop arg ∧ exec i s = .next s.complete) ∨
      (∃ arg, i = .pfReload arg ∧
        exec i s = .next ((s.loadRows (List.range s.cfg.rows)).setPfOrigin.markPfValid).complete) ∨
      (∃ arg, i = .pfAdjust arg ∧ s.status.pfValid = true ∧
        exec i s = .next ((s.loadRows [s.cfg.rows - 2, s.cfg.rows - 1]).setPfOrigin).complete) := by
  cases i with
  | nop arg =>
    simp only [exec, execNop]
    cases operandOk s.cfg .none arg
    · exact .inl ⟨_, _, rfl⟩
    · exact .inr (.inl ⟨arg, rfl, rfl⟩)
  | pfReload arg =>
    simp only [exec, execPfReload]
    cases operandOk s.cfg .none arg
    · exact .inl ⟨_, _, rfl⟩
    · exact .inr (.inr (.inl ⟨arg, rfl, rfl⟩))
  | pfAdjust arg =>
    simp only [exec, execPfAdjust]
    cases operandOk s.cfg .none arg
    · exact .inl ⟨_, _, rfl⟩
    · cases h : s.status.pfValid
      · exact .inl ⟨_, _, rfl⟩
      · exact .inr (.inr (.inr ⟨arg, rfl, rfl, rfl⟩))
  | stripClear _ => cases hi
  | stripBg _ => cases hi
  | stripSprites _ => cases hi
  | stripEmit _ => cases hi
  | renderStrip _ => cases hi
  | renderFrame _ => cases hi

/-! ### Where a command waits -/

/-- A body that stalls does so on a strip below `n`, and because the sink takes no page. -/
def Body.StallsBelow (n : Nat) (b : Body) : Prop := ∀ u k, b = .stalled u k → k < n ∧ u.sinkRoom = some 0

theorem Body.StallsBelow.andThen {n : Nat} {b : Body} {f : State → Body} (hb : b.StallsBelow n)
    (hf : ∀ s, (f s).StallsBelow n) : (b.andThen f).StallsBelow n := by
  cases b with
  | done s => exact hf s
  | raised _ _ _ _ => exact fun _ _ h => nomatch h
  | stalled s k => exact hb
  | unwritten _ => exact fun _ _ h => nomatch h

theorem stripBgBody_stallsBelow (n k : Nat) (s : State) : (stripBgBody k s).StallsBelow n := by
  rcases stripBgBody_cases k s with ⟨rc, -, h⟩ | ⟨-, h⟩ <;> rw [h] <;> exact fun _ _ h => nomatch h

theorem stripSpritesBody_stallsBelow (n k : Nat) (s : State) : (stripSpritesBody k s).StallsBelow n := by
  rcases stripSpritesBody_cases k s with ⟨-, h⟩ | ⟨j, t, -, h⟩ | ⟨j, -, h⟩ <;> rw [h] <;> exact fun _ _ h => nomatch h

theorem stripEmitBody_stallsBelow {n k : Nat} (hk : k < n) (s : State) : (stripEmitBody k s).StallsBelow n := by
  rcases stripEmitBody_cases k s with ⟨h0, h⟩ | ⟨-, h⟩ <;> rw [h]
  · intro _ _ he; cases he; exact ⟨hk, h0⟩
  · exact fun _ _ h => nomatch h

theorem renderStripBody_stallsBelow {n k : Nat} (hk : k < n) (s : State) : (renderStripBody k s).StallsBelow n :=
  ((Body.StallsBelow.andThen (b := stripClearBody s) (fun _ _ h => nomatch h) (stripBgBody_stallsBelow n k)).andThen
    (stripSpritesBody_stallsBelow n k)).andThen (stripEmitBody_stallsBelow hk)

theorem renderStrips_stallsBelow {n : Nat} {ks : List Nat} (hks : ∀ k ∈ ks, k < n) (s : State) :
    (renderStrips ks s).StallsBelow n := by
  induction ks generalizing s with
  | nil => exact fun _ _ h => nomatch h
  | cons k ks ih =>
    exact (renderStripBody_stallsBelow (hks k (by simp)) s).andThen (ih fun l hl => hks l (by simp [hl]))

/-- A command that answers a next state is over, or waits for a strip of the display because the sink takes no page
(rules R48, R256, R291). -/
theorem exec_sequencer {i : Instr} {s t : State} (h : exec i s = .next t) :
    t.sequencer = none ∨
      ∃ k, k < s.cfg.vr ∧ t.sequencer = some { word := encode i, strip := k } ∧ t.sinkRoom = some 0 := by
  have fin : ∀ b, finish (encode i) s b = .next t → b.StallsBelow s.cfg.vr →
      t.sequencer = none ∨
        ∃ k, k < s.cfg.vr ∧ t.sequencer = some { word := encode i, strip := k } ∧ t.sinkRoom = some 0 := by
    intro b hb hk
    rcases finish_eq_next hb with ⟨u, -, rfl⟩ | ⟨u, _, _, _, -, rfl⟩ | ⟨u, k, rfl, rfl⟩
    · exact .inl rfl
    · exact .inl rfl
    · exact .inr ⟨k, (hk u k rfl).1, rfl, (hk u k rfl).2⟩
  have chk : ∀ ok code info b, (ok = true → Body.StallsBelow s.cfg.vr b) →
      (check ok s code info b).StallsBelow s.cfg.vr := by
    intro ok code info b hb
    cases ok
    · exact fun _ _ h => nomatch h
    · exact hb rfl
  cases i with
  | nop _ => exact fin _ h (chk _ _ _ _ fun _ _ _ h => nomatch h)
  | pfReload _ => exact fin _ h (chk _ _ _ _ fun _ _ _ h => nomatch h)
  | pfAdjust _ => exact fin _ h (chk _ _ _ _ fun _ => chk _ _ _ _ fun _ _ _ h => nomatch h)
  | stripClear _ => exact fin _ h (chk _ _ _ _ fun _ _ _ h => nomatch h)
  | stripBg _ => exact fin _ h (chk _ _ _ _ fun _ => chk _ _ _ _ fun _ => stripBgBody_stallsBelow _ _ _)
  | stripSprites _ => exact fin _ h (chk _ _ _ _ fun _ => chk _ _ _ _ fun _ => stripSpritesBody_stallsBelow _ _ _)
  | stripEmit _ =>
    exact fin _ h (chk _ _ _ _ fun hok => chk _ _ _ _ fun _ =>
      stripEmitBody_stallsBelow (by simpa [operandOk] using hok) _)
  | renderStrip _ =>
    exact fin _ h (chk _ _ _ _ fun hok => chk _ _ _ _ fun _ =>
      renderStripBody_stallsBelow (by simpa [operandOk] using hok) _)
  | renderFrame _ =>
    exact fin _ h (chk _ _ _ _ fun _ => chk _ _ _ _ fun _ => renderStrips_stallsBelow s.stripsLeft_lt _)

/-! ### A command whose checks pass is its body -/

@[simp] theorem operandOk_none (c : Config) : operandOk c .none 0#8 = true := rfl

theorem operandOk_strip {c : Config} {arg : Byte} (h : arg.toNat < c.vr) : operandOk c .strip arg = true := by
  simp [operandOk, h]

theorem exec_pfReload_ok (s : State) : exec (.pfReload 0) s = finish (encode (.pfReload 0)) s (pfReloadBody s) := rfl

theorem exec_pfAdjust_ok {s : State} (hv : s.status.pfValid = true) :
    exec (.pfAdjust 0) s = finish (encode (.pfAdjust 0)) s (pfAdjustBody s) := by
  simp [exec, execPfAdjust, hv]

theorem exec_stripClear_ok (s : State) : exec (.stripClear 0) s = .next (s.fillStrip fun _ => 0x00#8).complete := rfl

theorem exec_stripBg_ok {s : State} {arg : Byte} (hk : arg.toNat < s.cfg.vr) (hv : s.status.pfValid = true) :
    exec (.stripBg arg) s = finish (encode (.stripBg arg)) s (stripBgBody arg.toNat s) := by
  simp [exec, execStripBg, operandOk_strip hk, hv]

theorem exec_stripSprites_ok {s : State} {arg : Byte} (hk : arg.toNat < s.cfg.vr)
    (hv : s.status.stripValid = true) :
    exec (.stripSprites arg) s = finish (encode (.stripSprites arg)) s (stripSpritesBody arg.toNat s) := by
  simp [exec, execStripSprites, operandOk_strip hk, hv]

theorem exec_stripEmit_ok {s : State} {arg : Byte} (hk : arg.toNat < s.cfg.vr)
    (hv : s.status.stripValid = true) :
    exec (.stripEmit arg) s = finish (encode (.stripEmit arg)) s (stripEmitBody arg.toNat s) := by
  simp [exec, execStripEmit, operandOk_strip hk, hv]

theorem exec_renderStrip_ok {s : State} {arg : Byte} (hk : arg.toNat < s.cfg.vr) (hv : s.status.pfValid = true) :
    exec (.renderStrip arg) s = finish (encode (.renderStrip arg)) s (renderStripBody arg.toNat s) := by
  simp [exec, execRenderStrip, operandOk_strip hk, hv]

theorem exec_renderFrame_ok {s : State} (hv : s.status.pfValid = true) :
    exec (.renderFrame 0) s = finish (encode (.renderFrame 0)) s (renderStrips s.stripsLeft s) := by
  simp [exec, execRenderFrame, hv]

/-- No command is refused. -/
theorem exec_ne_refused (i : Instr) (s : State) (r : Refusal) : exec i s ≠ .refused r := by
  cases i <;> exact finish_ne_refused _ _ _ r

end Sys2Proof.Machine
end

