-- ==== Sys2Proof/Laws/HostBus.lean ====
section
/-! SUPPORT. The host address map (rules R81, R92): what each range of addresses selects, and what each target reads. -/

namespace Sys2Proof.Machine

open Sys2Proof

theorem target_reg (c : Config) {a : Nat} (h : a < 0x10) : target c a = .reg (regAt a) := by
  unfold target
  rw [if_pos h]

theorem target_objField (c : Config) {a i : Nat} (ha : a = 0x400 + i) (hi : i < 4 * c.objCap) (hf : i % 4 ≠ 3) :
    target c a = .objField i := by
  subst ha
  unfold target
  rw [if_neg (by omega), if_pos (by omega), Nat.add_sub_cancel_left, if_neg hf]

theorem target_objReserved (c : Config) {a i : Nat} (ha : a = 0x400 + i) (hi : i < 4 * c.objCap) (hf : i % 4 = 3) :
    target c a = .objReserved := by
  subst ha
  unfold target
  rw [if_neg (by omega), if_pos (by omega), Nat.add_sub_cancel_left, if_pos hf]

theorem target_pfCell (c : Config) {a i : Nat} (ha : a = 0x800 + i) (hc : c.objCap ≤ 255)
    (hi : i < c.rows * c.cols) : target c a = .pfCell i := by
  subst ha
  unfold target
  rw [if_neg (by omega), if_neg (by omega), if_pos (by omega), Nat.add_sub_cancel_left]

theorem target_stripCol (c : Config) {a x : Nat} (ha : a = 0x1000 + x) (hc : c.objCap ≤ 255)
    (hp : c.rows * c.cols ≤ 0x800) (hx : x < c.width) : target c a = .stripCol x := by
  subst ha
  unfold target
  rw [if_neg (by omega), if_neg (by omega), if_neg (by omega), if_pos (by omega), Nat.add_sub_cancel_left]

theorem target_unmapped (c : Config) {a : Nat} (h0 : 0x10 ≤ a) (ho : ¬(0x400 ≤ a ∧ a < 0x400 + 4 * c.objCap))
    (hp : ¬(0x800 ≤ a ∧ a < 0x800 + c.rows * c.cols)) (hs : ¬(0x1000 ≤ a ∧ a < 0x1000 + c.width)) :
    target c a = .unmapped := by
  unfold target
  rw [if_neg (by omega), if_neg ho, if_neg hp, if_neg hs]

/-- What selects an object field (rule R53). -/
theorem eq_of_target_objField {c : Config} {a i : Nat} (h : target c a = .objField i) :
    i < 4 * c.objCap ∧ i % 4 ≠ 3 ∧ a = 0x400 + i := by
  unfold target at h
  by_cases h1 : a < 0x10
  · rw [if_pos h1] at h; exact absurd h (by simp)
  · rw [if_neg h1] at h
    by_cases h2 : 0x400 ≤ a ∧ a < 0x400 + 4 * c.objCap
    · rw [if_pos h2] at h
      by_cases h3 : (a - 0x400) % 4 = 3
      · rw [if_pos h3] at h; exact absurd h (by simp)
      · rw [if_neg h3] at h
        have hi : a - 0x400 = i := by simpa using h
        omega
    · rw [if_neg h2] at h
      split at h
      · exact absurd h (by simp)
      · split at h <;> exact absurd h (by simp)

/-! ### A flag word, bit by bit -/

@[simp] theorem flagBit_getLsbD (b : Bool) (n m : Nat) (hn : n < 16) :
    (flagBit b n).getLsbD m = (b && decide (m = n)) := by
  cases b
  · simp [flagBit]
  · simp only [flagBit, if_true, BitVec.getLsbD_ofNat, Bool.true_and, Nat.testBit_two_pow]
    by_cases h : m = n
    · subst h; simp [hn]
    · simp [h, Ne.symm h]

/-- The bits of STATUS (rule R32). -/
theorem State.statusWord_getLsbD (s : State) (m : Nat) :
    s.statusWord.getLsbD m =
      ((s.busy && decide (m = 0)) || (s.status.done && decide (m = 1)) || (s.status.fault && decide (m = 2)) ||
        (s.status.pfValid && decide (m = 3)) || (s.status.stripValid && decide (m = 4)) ||
        (s.status.wrIgnored && decide (m = 5)) || (s.irq && decide (m = 6))) := by
  simp [State.statusWord]

/-- The bits of CTRL (rule R31). -/
theorem State.ctrlWord_getLsbD (s : State) (m : Nat) :
    s.ctrlWord.getLsbD m =
      ((s.ctrl.fineXEn && decide (m = 0)) || (s.ctrl.fineYEn && decide (m = 1)) ||
        (s.ctrl.doneIe && decide (m = 2)) || (s.ctrl.faultIe && decide (m = 3))) := by
  simp [State.ctrlWord]

end Sys2Proof.Machine
end

