-- ==== Sys2Proof/Laws/PerInstr.lean ====
section
/-! SUPPORT. The per-instruction family EncodingFields: the encoder puts each command's opcode in bits 15:8 and its ARG in
bits 7:0 (rules R110, R112). -/

namespace Sys2Proof.Laws.EncodingFields

open Sys2Proof

/-- OP and ARG of the encoded word are the command's opcode and operand. -/
def Statement (i : Instr) : Prop := wordOp (encode i) = i.op ∧ wordArg (encode i) = i.arg

/-- Concatenation puts `a` in the high byte and `b` in the low byte (rule R14). -/
theorem fields_append (a b : Byte) : wordOp (a ++ b) = a ∧ wordArg (a ++ b) = b := by
  constructor
  · apply BitVec.eq_of_getLsbD_eq
    intro n hn
    simp only [wordOp, BitVec.getLsbD_extractLsb', BitVec.getLsbD_append]
    simp [hn]
  · apply BitVec.eq_of_getLsbD_eq
    intro n hn
    simp only [wordArg, BitVec.getLsbD_extractLsb', BitVec.getLsbD_append]
    simp [hn]

theorem nop (a : Byte) : Statement (.nop a) := fields_append _ _
theorem pfReload (a : Byte) : Statement (.pfReload a) := fields_append _ _
theorem pfAdjust (a : Byte) : Statement (.pfAdjust a) := fields_append _ _
theorem stripClear (a : Byte) : Statement (.stripClear a) := fields_append _ _
theorem stripBg (s : Byte) : Statement (.stripBg s) := fields_append _ _
theorem stripSprites (s : Byte) : Statement (.stripSprites s) := fields_append _ _
theorem stripEmit (s : Byte) : Statement (.stripEmit s) := fields_append _ _
theorem renderStrip (s : Byte) : Statement (.renderStrip s) := fields_append _ _
theorem renderFrame (a : Byte) : Statement (.renderFrame a) := fields_append _ _

end Sys2Proof.Laws.EncodingFields
end

