-- ==== Sys2Proof/Laws/Render.lean ====
section
/-! SUPPORT. The check passes and the background read only what no sub-step of a render command writes. -/

namespace Sys2Proof.Machine

open Sys2Proof

/-- `u` differs from `s` at most in what the check passes and the background do not read (rule R220). -/
structure State.SameScene (s u : State) : Prop where
  cfg : u.cfg = s.cfg
  ctrl : u.ctrl = s.ctrl
  scrollX : u.scrollX = s.scrollX
  scrollY : u.scrollY = s.scrollY
  objCount : u.objCount = s.objCount
  obj : u.obj = s.obj
  pf : u.pf = s.pf
  resets : u.resets = s.resets

theorem State.SameScene.refl (s : State) : s.SameScene s := ⟨rfl, rfl, rfl, rfl, rfl, rfl, rfl, rfl⟩

theorem State.SameScene.trans {s t u : State} (h : s.SameScene t) (h' : t.SameScene u) : s.SameScene u :=
  ⟨h'.cfg.trans h.cfg, h'.ctrl.trans h.ctrl, h'.scrollX.trans h.scrollX, h'.scrollY.trans h.scrollY,
    h'.objCount.trans h.objCount, h'.obj.trans h.obj, h'.pf.trans h.pf, h'.resets.trans h.resets⟩

theorem State.SameScene.fillStrip (s : State) (f : Nat → Byte) : s.SameScene (s.fillStrip f) := by
  constructor <;> simp

theorem State.SameScene.drawAll (s : State) (k : Nat) : s.SameScene (s.drawAll k) := by constructor <;> simp

theorem State.SameScene.emitPage (s : State) (p : Page) : s.SameScene (s.emitPage p) := by constructor <;> simp

theorem State.SameScene.complete (s : State) : s.SameScene s.complete := by constructor <;> simp

theorem State.SameScene.cell {s u : State} (h : s.SameScene u) (r c : Nat) : u.cell r c = s.cell r c := by
  simp [State.cell, State.pfByte, h.cfg, h.pf, h.resets]

theorem State.SameScene.bgByte {s u : State} (h : s.SameScene u) (k : Nat) : u.bgByte k = s.bgByte k := by
  funext x
  simp [State.bgByte, State.bgPixel, State.bXOff, State.bYOff, State.row0, State.row1, State.bgCol, State.physRow,
    State.tX, State.tY, h.cell, h.cfg, h.ctrl, h.scrollX, h.scrollY]

theorem State.SameScene.firstBadCell {s u : State} (h : s.SameScene u) (k : Nat) :
    u.firstBadCell k = s.firstBadCell k := by
  have hat : u.sampledAt k = s.sampledAt k := by
    funext x
    simp [State.sampledAt, State.bgPixel, State.bXOff, State.bYOff, State.row0, State.row1, State.bgCol,
      State.physRow, State.tX, State.tY, h.cfg, h.ctrl, h.scrollX, h.scrollY]
  simp [State.firstBadCell, State.sampled, hat, h.cell, h.cfg]

theorem State.SameScene.objEntry {s u : State} (h : s.SameScene u) (k : Nat) : u.objEntry k = s.objEntry k := by
  simp [State.objEntry, h.obj]

theorem State.SameScene.checkEntries {s u : State} (h : s.SameScene u) (k : Nat) (ks : List Nat) :
    u.checkEntries k ks = s.checkEntries k ks := by
  induction ks with
  | nil => rfl
  | cons j ks ih => simp only [State.checkEntries, h.objEntry, h.cfg, ih]

theorem State.SameScene.spriteCheck {s u : State} (h : s.SameScene u) (k : Nat) :
    u.spriteCheck k = s.spriteCheck k := by
  simp only [State.spriteCheck, h.objCount, h.checkEntries]

/-- A run of strips that ends well, cut in two (rule R221). -/
theorem renderStrips_append {ks ls : List Nat} {s t : State} (h : renderStrips ks s = .done t) :
    renderStrips (ks ++ ls) s = renderStrips ls t := by
  induction ks generalizing s with
  | nil => simp only [renderStrips, Body.done.injEq] at h; subst h; rfl
  | cons k ks ih =>
    simp only [renderStrips, List.cons_append] at h ⊢
    obtain ⟨u, hu, h2⟩ := Body.andThen_eq_done h
    rw [hu, Body.done_andThen]
    exact ih h2

end Sys2Proof.Machine
end

