-- ==== Sys2Proof/Laws/Sprites.lean ====
section
/-! SUPPORT. The sprite compositor bit by bit: what one half, one column and one entry do to a pixel, and when the check
passes of STRIP_SPRITES and STRIP_BG pass. -/

namespace Sys2Proof.Machine

open Sys2Proof

/-- One half of ColumnMP, bit by bit: the sprite's row r of the strip's row b, where the half has it (rule R185). -/
theorem halfMP_getLsbD (c : Config) (t : Byte) (i : Nat) (d : Int) (mp : Byte × Byte) (q : Nat) {b : Nat} (hb : b < 8) :
    let r : Int := b - (d + 8 * q)
    (halfMP c t i d mp q).1.getLsbD b =
        (mp.1.getLsbD b && (if 0 ≤ r ∧ r < 8 then (maskByte c t i q).getLsbD r.toNat else true)) ∧
      (halfMP c t i d mp q).2.getLsbD b =
        (mp.2.getLsbD b || (if 0 ≤ r ∧ r < 8 then (patternByte c t i q).getLsbD r.toNat else false)) := by
  have ones : ∀ n : Nat, n < 8 → (ones n).getLsbD b = decide (b < n) := by
    intro n hn; revert b; revert n; decide
  have hiones : ∀ n : Nat, n < 8 → (hiones n).getLsbD b = decide (8 ≤ b + n) := by
    intro n hn; revert b; revert n; decide
  intro r
  unfold halfMP
  simp only
  by_cases h1 : -8 < d + 8 * (q:Int) ∧ d + 8 * (q:Int) < 8
  · rw [if_pos h1]
    by_cases h2 : 0 ≤ d + 8 * (q:Int)
    · rw [if_pos h2]
      obtain ⟨n, hn⟩ : ∃ n : Nat, d + 8 * (q:Int) = n := ⟨(d + 8 * (q:Int)).toNat, by omega⟩
      have hr : r = b - n := by omega
      rw [hn]
      simp only [Int.toNat_natCast, BitVec.getLsbD_and, BitVec.getLsbD_or, ones n (by omega), shl8, BitVec.getLsbD_shiftLeft, hb, decide_true, Bool.true_and]
      by_cases h3 : b < n
      · simp [h3, show ¬ (0 ≤ r ∧ r < 8) by omega]
      · have h4 : (0 ≤ r ∧ r < 8) := by omega
        rw [if_pos h4, if_pos h4]; simp [h3, show r.toNat = b - n by omega]
    · rw [if_neg h2]
      obtain ⟨n, hn⟩ : ∃ n : Nat, -(d + 8 * (q:Int)) = n := ⟨(-(d + 8 * (q:Int))).toNat, by omega⟩
      have hr : r = b + n := by omega
      rw [hn]
      simp only [Int.toNat_natCast, BitVec.getLsbD_and, BitVec.getLsbD_or, hiones n (by omega), shr8, BitVec.getLsbD_ushiftRight]
      by_cases h3 : 8 ≤ b + n
      · rw [BitVec.getLsbD_of_ge (patternByte c t i q) (n+b) (by omega)]
        simp [h3, show ¬ (0 ≤ r ∧ r < 8) by omega]
      · have h4 : (0 ≤ r ∧ r < 8) := by omega
        rw [if_pos h4, if_pos h4]; simp [h3, show r.toNat = n + b by omega]
  · rw [if_neg h1]
    have : ¬ (0 ≤ r ∧ r < 8) := by omega
    simp [this]

/-- A column composed onto a byte, bit by bit: the pixel rule where the sprite covers the row (rules R184, R185). -/
theorem composite_columnMP_getLsbD (c : Config) (t : Byte) (i : Nat) (d : Int) (old : Byte) {b : Nat} (hb : b < 8) :
    let r : Int := b - d
    (composite old (columnMP c t i d)).getLsbD b =
      if 0 ≤ r ∧ r < sprSize t then
        (old.getLsbD b && (spritePixel c t i r.toNat).1) || (spritePixel c t i r.toNat).2
      else old.getLsbD b := by
  intro r
  have h0 := fun mp => halfMP_getLsbD c t i d mp 0 hb
  have h1 := fun mp => halfMP_getLsbD c t i d mp 1 hb
  have ini : (0xFF : Byte).getLsbD b = true ∧ (0x00 : Byte).getLsbD b = false := by clear h0 h1 r; revert b; decide
  unfold columnMP sprSize composite
  simp only [BitVec.getLsbD_and, BitVec.getLsbD_or]
  cases hbig : sprBig t
  · simp only [Bool.false_eq_true, if_false, show List.range (8/8) = [0] from rfl, List.foldl_cons, List.foldl_nil]
    rw [(h0 _).1, (h0 _).2, ini.1, ini.2]
    simp only [Nat.cast_zero, mul_zero, add_zero, Bool.true_and, Bool.false_or, Nat.cast_ofNat]
    by_cases h : 0 ≤ r ∧ r < 8
    · rw [if_pos h, if_pos h, if_pos h]
      simp [spritePixel, show r.toNat / 8 = 0 by omega, show r.toNat % 8 = r.toNat by omega]
      rfl
    · rw [if_neg h, if_neg h, if_neg h]; simp
  · simp only [if_true, show List.range (16/8) = [0, 1] from rfl, List.foldl_cons, List.foldl_nil]
    rw [(h1 _).1, (h1 _).2, (h0 _).1, (h0 _).2, ini.1, ini.2]
    simp only [Nat.cast_zero, mul_zero, add_zero, Bool.true_and, Bool.false_or, Nat.cast_ofNat, Nat.cast_one, mul_one]
    by_cases h : 0 ≤ r ∧ r < 8
    · have h2 : ¬ (0 ≤ (b:Int) - (d + 8) ∧ (b:Int) - (d+8) < 8) := by omega
      have h3 : 0 ≤ r ∧ r < 16 := by omega
      rw [if_neg h2, if_neg h2, if_pos h3]
      have e1 : r.toNat / 8 = 0 := by omega
      have e2 : r.toNat % 8 = r.toNat := by omega
      simp only [spritePixel, e1, e2]
      rw [if_pos h, if_pos h]; simp; rfl
    · by_cases h2 : (0 ≤ (b:Int) - (d + 8) ∧ (b:Int) - (d+8) < 8)
      · have h3 : 0 ≤ r ∧ r < 16 := by omega
        have e1 : r.toNat / 8 = 1 := by omega
        have e2 : r.toNat % 8 = ((b:Int) - (d+8)).toNat := by omega
        simp only [spritePixel, e1, e2]
        rw [if_neg h, if_neg h, if_pos h3, if_pos h2, if_pos h2]; simp
      · have h3 : ¬ (0 ≤ r ∧ r < 16) := by omega
        rw [if_neg h, if_neg h, if_neg h3, if_neg h2, if_neg h2]; simp

/-- Drawing one entry, pixel by pixel (rules R183, R184). -/
theorem State.drawObj_getLsbD (k : Nat) (s : State) (o : Obj) (x : Nat) {b : Nat} (hb : b < 8) :
    ((s.drawObj k o).stripByte x).getLsbD b =
      pixelOver s.cfg o x (8 * k + b) ((s.stripByte x).getLsbD b) := by
  rw [State.drawObj_stripByte]
  unfold pixelOver covers drawnWidth
  by_cases h : o.x.toNat ≤ x ∧ x < o.x.toNat + min (sprSize o.t) (s.cfg.width - o.x.toNat)
  · rw [if_pos h, composite_columnMP_getLsbD _ _ _ _ _ hb]
    unfold stripOffset
    by_cases h2 : (0:Int) ≤ b - ((o.y.toNat:Int) - 8 * k) ∧ (b:Int) - ((o.y.toNat:Int) - 8 * k) < sprSize o.t
    · rw [if_pos h2, if_pos (by simp; omega)]
      have : ((b:Int) - ((o.y.toNat:Int) - 8 * k)).toNat = 8 * k + b - o.y.toNat := by omega
      rw [this]
    · rw [if_neg h2, if_neg (by simp; omega)]
  · rw [if_neg h, if_neg (by simp; omega)]

/-- The check pass over entries that are all ready (rule R188). -/
theorem State.checkEntries_pass {s : State} {k : Nat} {ks : List Nat} (h : ∀ j ∈ ks, s.entryReady k j) :
    s.checkEntries k ks = .pass := by
  induction ks with
  | nil => rfl
  | cons j ks ih =>
    obtain ⟨o, ho, hv⟩ := h j (by simp)
    simp only [State.checkEntries, ho]
    rw [if_neg, ih fun l hl => h l (by simp [hl])]
    cases hh : visible s.cfg o k <;> simp [hh] at hv ⊢
    exact hv

/-- The check pass over the live entries of a strip whose entries are all ready (rule R188). -/
theorem State.spriteCheck_pass {s : State} {k : Nat} (h : s.spritesReady k) : s.spriteCheck k = .pass :=
  State.checkEntries_pass fun j hj => h j (by simpa using hj)

/-- The check pass of STRIP_BG over sampled cells that are all in range (rule R216). -/
theorem State.firstBadCell_none {s : State} {k : Nat} (h : s.bgReady k) : s.firstBadCell k = none := by
  unfold State.firstBadCell
  rw [List.find?_eq_none]
  intro rc hrc
  simp only [State.sampled, List.mem_flatMap, List.mem_range] at hrc
  obtain ⟨x, hx, hrc⟩ := hrc
  simp [h x hx rc hrc]

end Sys2Proof.Machine
end

