-- ==== Sys2Proof/Laws/Step.lean ====
section
/-! SUPPORT. What a host write and a step can do: one inversion lemma each. -/

namespace Sys2Proof.Machine

open Sys2Proof

/-! ### Decoding -/

/-- A word that decodes keeps its OP and ARG fields (rules R110, R116). -/
theorem decode_fields {w : Word} {i : Instr} (h : decode w = .ok i) : i.op = wordOp w ∧ i.arg = wordArg w := by
  unfold decode at h
  split at h <;> cases h <;> refine ⟨?_, rfl⟩ <;>
    · next hw => exact (BitVec.eq_of_toNat_eq (by rw [hw]; rfl)).symm

/-! ### Host writes -/

/-- Everything a host write can do (rules R252, R253, R257 to R261). -/
inductive WriteEffect (s : State) : State → Prop where
  | ignored : WriteEffect s s
  | dropped : WriteEffect s s.dropWrite
  | status (v : Word) : WriteEffect s (s.statusWrite v)
  | accepted (w : Word) (hb : s.busy = false) (hf : s.status.fault = false) : WriteEffect s (s.accept w)
  | ctrl (c : Ctrl) (hb : s.busy = false) : WriteEffect s (s.setCtrl c)
  | scrollX (v : Word) (hb : s.busy = false) : WriteEffect s (s.setScrollX v)
  | scrollY (v : Word) (hb : s.busy = false) : WriteEffect s (s.setScrollY v)
  | objCount (v : Word) (hb : s.busy = false) : WriteEffect s (s.setObjCount (objCountOf s.cfg v))
  | obj (i : Nat) (b : Byte) (hb : s.busy = false) (hi : i < 4 * s.cfg.objCap ∧ i % 4 ≠ 3) :
      WriteEffect s (s.setObj (s.obj.write i b))

/-- A host write has one of these effects and no other. -/
theorem State.hostWrite_cases (s : State) (a : HostAddr) (v : Word) : WriteEffect s (s.hostWrite a v) := by
  have dropOr : ∀ t, (s.busy = false → WriteEffect s t) → WriteEffect s (if s.busy then s.dropWrite else t) := by
    intro t h
    cases hb : s.busy
    · exact h hb
    · exact .dropped
  unfold State.hostWrite
  split
  · exact .status v
  · refine dropOr _ fun hb => ?_
    unfold State.cmdWrite
    cases hf : s.status.fault
    · exact .accepted v hb hf
    · exact .dropped
  · exact dropOr _ (.ctrl _)
  · exact dropOr _ (.scrollX _)
  · exact dropOr _ (.scrollY _)
  · exact dropOr _ (.objCount _)
  · next i h => exact dropOr _ fun hb => .obj i _ hb ⟨(eq_of_target_objField h).1, (eq_of_target_objField h).2.1⟩
  all_goals exact .ignored

/-! ### Steps -/

/-- The decoder refuses a word by that word's name. -/
theorem decode_error {w : Word} {e : DecodeError} (h : decode w = .error e) : e = .illegalCmd w := by
  unfold decode at h
  split at h <;> cases h
  rfl

/-- WAIT goes on while the STATUS word it read shows BUSY (rule R119). -/
theorem State.hostRead_addrStatus_busy (s : State) : (s.hostRead addrStatus).getLsbD 0 = s.busy := by
  have h : s.hostRead addrStatus = s.statusWord := by
    have ht : target s.cfg addrStatus.toNat = .reg .status := target_reg s.cfg (by decide)
    unfold State.hostRead
    rw [ht]
    rfl
  rw [h, State.statusWord_getLsbD]
  simp

/-- Everything a turn of the host can do (rules R119, R250). -/
inductive HostEffect (s : State) : State → Prop where
  | ended (hs : s.script = []) : HostEffect s s
  | read (a : HostAddr) (rest : List HostOp) (hs : s.script = .read a :: rest) :
      HostEffect s ((s.setScript rest).pushReply (s.hostRead a))
  | poll (rest : List HostOp) (hs : s.script = .wait :: rest) (hb : s.busy = true) :
      HostEffect s (s.pushReply (s.hostRead addrStatus))
  | lastPoll (rest : List HostOp) (hs : s.script = .wait :: rest) (hb : s.busy = false) :
      HostEffect s ((s.setScript rest).pushReply (s.hostRead addrStatus))
  | write (a : HostAddr) (v : Word) (rest : List HostOp) (t : State) (hs : s.script = .write a v :: rest)
      (ht : t = (s.setScript rest).hostWrite a v) (he : WriteEffect (s.setScript rest) t) : HostEffect s t

/-- A turn of the host has one of these effects and no other. -/
theorem State.hostTurn_cases (s : State) : HostEffect s s.hostTurn := by
  unfold State.hostTurn
  split
  · next hs => exact .ended hs
  · next a rest hs => exact .read a rest hs
  · next a v rest hs => exact .write a v rest _ hs rfl (State.hostWrite_cases _ a v)
  · next rest hs =>
    simp only [State.hostRead_addrStatus_busy]
    cases hb : s.busy
    · exact .lastPoll rest hs hb
    · exact .poll rest hs hb

/-! ### Who moves, and what a step then is -/

theorem State.nextTurn_of_turns {s : State} {t : Turn} {rest : List Turn} (h : s.turns = t :: rest) :
    s.nextTurn = t := by
  rw [State.nextTurn, h]

theorem State.nextTurn_of_nil {s : State} (h : s.turns = []) :
    s.nextTurn = if s.busy then .engine else .host := by
  rw [State.nextTurn, h]

/-- With no turn listed, taking the turn off the list changes nothing. -/
theorem State.setTurns_tail_of_nil {s : State} (h : s.turns = []) : s.setTurns s.turns.tail = s := by
  rw [h, List.tail_nil, ← h]
  rfl

/-- A step in a well-formed configuration is a turn of the agent that moves next. -/
theorem step_eq_takeTurn {s : State} {t : Turn} (hwf : s.cfg.wf = true) (hn : s.nextTurn = t) :
    step s = takeTurn t (s.setTurns s.turns.tail) := by
  rw [step, if_pos hwf, State.moveNext, hn]

/-- The engine's turn with a command latched is `exec` of it (rule R255). -/
theorem engineTurn_command {s : State} {q : Running} {i : Instr} (hq : s.sequencer = some q)
    (hd : decode q.word = .ok i) : engineTurn s = exec i s := by
  simp [engineTurn, hq, hd]

/-- Everything a step that answers a next state can be. Each case is a turn of one agent, taken in `s` with that turn
off the list. -/
inductive StepEffect (s : State) : State → Prop where
  /-- The engine's turn with no command latched (rule R293). -/
  | idle (hn : s.nextTurn = .engine) (hq : s.sequencer = none) : StepEffect s (s.setTurns s.turns.tail)
  /-- The engine's turn with a command latched (rule R255). -/
  | command (q : Running) (i : Instr) (t : State) (hn : s.nextTurn = .engine) (hq : s.sequencer = some q)
      (hd : decode q.word = .ok i) (ht : exec i (s.setTurns s.turns.tail) = .next t) : StepEffect s t
  /-- The engine's turn with an illegal word latched (rule R273). -/
  | illegal (q : Running) (hn : s.nextTurn = .engine) (hq : s.sequencer = some q)
      (hd : decode q.word = .error (.illegalCmd q.word)) :
      StepEffect s ((s.setTurns s.turns.tail).raiseFault (wordOp q.word) .illegalCmd q.word 0)
  /-- The host's turn (rule R250). -/
  | host (t : State) (hn : s.nextTurn = .host) (ht : HostEffect (s.setTurns s.turns.tail) t) : StepEffect s t
  /-- The sink's readiness changes (rule R291). -/
  | sink (room : Option Nat) (hn : s.nextTurn = .sink room) :
      StepEffect s ((s.setTurns s.turns.tail).setSinkRoom room)
  /-- The reset event (rule R300). -/
  | reset (hn : s.nextTurn = .reset) : StepEffect s (s.setTurns s.turns.tail).resetEvent

/-- A step that answers a next state ran in a well-formed configuration and had one of these effects. -/
theorem step_cases {s t : State} (h : step s = .next t) : s.cfg.wf = true ∧ StepEffect s t := by
  unfold step at h
  split at h
  · next hwf =>
    refine ⟨hwf, ?_⟩
    unfold State.moveNext at h
    cases hn : s.nextTurn with
    | host =>
      rw [hn] at h
      cases h
      exact .host _ hn (State.hostTurn_cases _)
    | engine =>
      rw [hn] at h
      simp only [takeTurn, engineTurn] at h
      split at h
      · next hq => cases h; exact .idle hn hq
      · next q hq =>
        split at h
        · next i hd => exact .command q i t hn hq hd h
        · next e hd => cases h; exact .illegal q hn hq (decode_error hd ▸ hd)
    | sink room => rw [hn] at h; cases h; exact .sink room hn
    | reset => rw [hn] at h; cases h; exact .reset hn
  · cases h

end Sys2Proof.Machine
end

