-- ==== Sys2Proof/Tests/Slice0.lean ====
section
/-! SUPPORT. Tests on small states: well-formedness, decoding, vectors of 95_test_vectors.md, and one witness for every
obligation that has hypotheses. -/

namespace Sys2Proof.Tests

open Sys2Proof Sys2Proof.Machine

/-! ### Configurations of 95_test_vectors.md section 1 -/

/-- SPR8_ROM of CFG-SP. -/
def spr8Bytes : List Byte :=
  List.replicate 8 0x00#8 ++ List.replicate 8 0xAA#8 ++ List.replicate 8 0xFF#8 ++ List.replicate 8 0x00#8 ++
    List.replicate 8 0xF0#8 ++ List.replicate 8 0x06#8 ++ List.replicate 8 0xFF#8 ++ List.replicate 8 0x18#8

/-- SPR16_ROM of CFG-SP. -/
def spr16Bytes : List Byte :=
  List.replicate 16 0x00#8 ++ List.replicate 16 0xF0#8 ++ [0x81#8] ++ List.replicate 15 0x3C#8 ++
    List.replicate 16 0x03#8

/-- CFG-S with `h` map rows: CFG-S for 5, CFG-S7 for 7. -/
def cfgMap (h : Nat) : Config where
  vc := 2
  vr := 3
  mapHeight := h
  tileCount := 6
  spr8Count := 4
  spr16Count := 1
  objCap := 4
  tileRom := (List.range 6).flatMap fun n => (List.range 8).map fun j => BitVec.ofNat 8 (16 * n + j)
  spr8Rom := spr8Bytes
  spr16Rom := spr16Bytes
  mapRom := (List.range h).flatMap fun m => (List.range 4).map fun c => BitVec.ofNat 8 ((m + c) % 6)

/-- CFG-S. -/
def cfgS : Config := cfgMap 5

/-- CFG-S with the map byte at address `a` changed to 7 (V53, V54). -/
def cfgBad (a : Nat) : Config := { cfgS with mapRom := cfgS.mapRom.set a 0x07#8 }

/-- CFG-SP(2): every background byte is 0x55. -/
def cfgSP : Config where
  vc := 2
  vr := 3
  mapHeight := 1
  tileCount := 3
  spr8Count := 4
  spr16Count := 1
  objCap := 4
  tileRom := List.replicate 8 0x00#8 ++ List.replicate 8 0xFF#8 ++ List.replicate 8 0x55#8
  spr8Rom := spr8Bytes
  spr16Rom := spr16Bytes
  mapRom := List.replicate 4 0x02#8

/-! ### Small states -/

/-- The state an outcome gives, or `s` where it gives none. -/
def nextOr (s : State) : Host.Outcome State Fault Refusal → State
  | .next t => t
  | _ => s

/-- Did an outcome give a state? -/
def isNext : Host.Outcome State Fault Refusal → Bool
  | .next _ => true
  | _ => false

/-- The fault an outcome gives. -/
def faultOf : Host.Outcome State Fault Refusal → Option Fault
  | .fault f => some f
  | _ => none

/-- `s` after the host issued command `i`, or `s` where the machine stops. -/
def ran (i : Instr) (s : State) : State := nextOr s (exec i (s.accept (encode i)))

/-- Reset of CFG-S with a scroll position. -/
def scrolled (c : Config) (x y : Word) : State := ((State.powerOn c).setScrollX x).setScrollY y

/-- A state after PF_RELOAD at a scroll position. -/
def loaded (c : Config) (x y : Word) : State := ran (.pfReload 0) (scrolled c x y)

/-- `s` with object `k` written. -/
def withObj (k : Nat) (x y t : Byte) (s : State) : State :=
  s.setObj (((s.obj.write (4 * k) x).write (4 * k + 1) y).write (4 * k + 2) t)

/-- `s` with one live object. -/
def oneObj (x y t : Byte) (s : State) : State := (withObj 0 x y t s).setObjCount 1

/-- CFG-SP(2) after PF_RELOAD and STRIP_BG of strip `k`: every strip byte is 0x55. -/
def strip55 (k : Byte) : State := ran (.stripBg k) (loaded cfgSP 0 0)

/-- An idle state of CFG-S whose host has one access left. -/
def hostNext (op : HostOp) : State := (State.powerOn cfgS).setScript [op]

/-- A state of CFG-S with the word `w` accepted. -/
def latched (w : Word) : State := (State.powerOn cfgS).accept w

/-! ### Well-formedness -/

theorem test_reference_wf : Config.reference.wf = true := by decide +kernel
theorem test_cfgS_wf : cfgS.wf = true := by decide
theorem test_cfgSP_wf : cfgSP.wf = true := by decide
theorem test_illformed_width : ({ cfgS with vc := 33 } : Config).geometryOk = false := by decide
theorem test_illformed_strips : ({ cfgS with vr := 0 } : Config).geometryOk = false := by decide
theorem test_illformed_mapHeight : ({ cfgS with mapHeight := 65536 } : Config).mapHeightOk = false := by decide
theorem test_illformed_tileCount : ({ cfgS with tileCount := 257 } : Config).tileCountOk = false := by decide
theorem test_illformed_spriteCount : ({ cfgS with spr16Count := 129 } : Config).spriteCountsOk = false := by decide
theorem test_illformed_objCap : ({ cfgS with objCap := 256 } : Config).objCapOk = false := by decide
theorem test_illformed_romSize : ({ cfgS with tileRom := [] } : Config).romSizesOk = false := by decide
theorem test_illformed_config : ({ cfgS with mapHeight := 6 } : Config).wf = false := by decide
theorem test_illformed_none : (Instr.nop 1).wellFormed cfgS = false := by decide
theorem test_illformed_strip : (Instr.stripBg 3).wellFormed cfgS = false := by decide

/-! ### Decoding: words written out from rule R112, OP then ARG -/

theorem test_decode_nop : decode 0b00000000_00000000 = .ok (.nop 0) := by decide
theorem test_decode_pfReload : decode 0b00000001_00000000 = .ok (.pfReload 0) := by decide
theorem test_decode_pfAdjust : decode 0b00000010_00000000 = .ok (.pfAdjust 0) := by decide
theorem test_decode_stripClear : decode 0b00010000_00000000 = .ok (.stripClear 0) := by decide
theorem test_decode_stripBg : decode 0b00010001_00000010 = .ok (.stripBg 2) := by decide
theorem test_decode_stripSprites : decode 0b00010010_00000001 = .ok (.stripSprites 1) := by decide
theorem test_decode_stripEmit : decode 0b00010011_00000011 = .ok (.stripEmit 3) := by decide
theorem test_decode_renderStrip : decode 0b00100000_00000101 = .ok (.renderStrip 5) := by decide
theorem test_decode_renderFrame : decode 0b00100001_00000000 = .ok (.renderFrame 0) := by decide
theorem test_decode_illegal : decode 0b00110000_00000000 = .error (.illegalCmd 0x3000) := by decide
theorem test_decode_row_stripEmit : decodeTableWord 16 0x1303 = some (.stripEmit 3) := by decide
theorem test_decode_row_illegal : decodeTableWord 16 0x0300 = none := by decide

/-! ### A command as the first instruction after reset -/

theorem test_first_stripClear :
    (nextOr .reset (step (State.reset.withFetchWord 16 0x1000))).statusWord = 0x0012 := by decide +kernel
theorem test_first_nop : (nextOr .reset (step (State.reset.withFetchWord 16 0x0000))).statusWord = 0x0002 := by
  decide +kernel

/-! ### Vectors of 95_test_vectors.md -/

/-- V20's rule on CFG-S7 at tY = 2: physical rows hold map rows 5, 6, 2, 3, 4. -/
theorem test_pfReload_rows :
    (List.range 5).map (fun r => (loaded (cfgMap 7) 0 0x13).cell r 0) = [5, 0, 2, 3, 4] := by decide

theorem test_pfReload_origin : (loaded (cfgMap 7) 0 0xFFFF).pfOrigin = 8191 := by decide

/-- P4 step 9: an adjust after a jump of 4 rows leaves physical rows 1 and 2 stale. -/
theorem test_pfAdjust_stale :
    (List.range 5).map
      (fun r => (ran (.pfAdjust 0) ((ran (.pfAdjust 0) ((loaded (cfgMap 7) 0 0).setScrollY 8)).setScrollY 40)).cell r 0) =
      [5, 1, 2, 1, 2] := by decide

/-- V26. -/
theorem test_pfAdjust_notLoaded :
    let t := ran (.pfAdjust 0) (State.powerOn cfgS)
    (t.faultCode, t.faultInfo, t.faultLoc, t.statusWord) = (0x0203, 0x0200, 0x0000, 0x0004) := by decide

/-- V35. -/
theorem test_stripBg_bothOffsets : (ran (.stripBg 1) (loaded cfgS 0x000B 0x0005)).stripBytes =
    [0x99, 0xA1, 0xA9, 0xB1, 0xB9, 0x01, 0x09, 0x11, 0x19, 0x21, 0x29, 0x31, 0x39, 0x82, 0x8A, 0x92] := by
  decide

/-- V38b. -/
theorem test_stripBg_wrap : (ran (.stripBg 0) (loaded cfgS 0xFFFF 0xFFFF)).stripBytes =
    [0xAE, 0x40, 0x42, 0x44, 0x46, 0x48, 0x4A, 0x4C, 0x4E, 0x60, 0x62, 0x64, 0x66, 0x68, 0x6A, 0x6C] := by
  decide

/-- V53, the bad cell in the next row. -/
theorem test_stripBg_fault :
    let t := ran (.stripBg 2) (loaded (cfgBad 13) 0 3)
    (t.faultCode, t.faultInfo, t.faultLoc) = (0x1105, 0x0207, 0x000D) := by decide

/-- V30. -/
theorem test_stripClear : (ran (.stripClear 0) (State.powerOn cfgS)).stripBytes = List.replicate 16 0 := by
  decide

/-- V11, d = 3. -/
theorem test_column8 : columnMP cfgSP 0x02 0 3 = (0x87, 0x30) := by decide

/-- V17, d = -4, column 0. -/
theorem test_column16 : columnMP cfgSP 0x80 0 (-4) = (0x00, 0x38) := by decide

/-- V16, third row: clipped at the right edge, d = -4. -/
theorem test_stripSprites_clip : (ran (.stripSprites 1) (oneObj 14 4 0x80 (strip55 1))).stripBytes =
    List.replicate 14 0x55 ++ [0x38, 0x33] := by decide

/-- V18, first row: later on top. -/
theorem test_stripSprites_order :
    (ran (.stripSprites 0) ((withObj 1 4 0 0x02 (withObj 0 0 0 0x00 (strip55 0))).setObjCount 2)).stripBytes =
      List.replicate 4 0xAA ++ List.replicate 4 0xA6 ++ List.replicate 4 0x56 ++ List.replicate 4 0x55 := by
  decide

/-- V55, second row. -/
theorem test_sprite_fault :
    let t := ran (.stripSprites 0) (oneObj 0 0 0x81 (strip55 0))
    (t.faultCode, t.faultInfo, t.faultLoc) = (0x1206, 0x0081, 0x0000) := by decide

/-- V56. -/
theorem test_unwritten : faultOf (exec (.stripSprites 0) ((strip55 0).setObjCount 1)) = some (.unwrittenObj 0) := by
  decide

/-- V31. -/
theorem test_stripEmit : (ran (.stripEmit 2) (ran (.stripClear 0) (State.powerOn cfgS))).pages =
    [{ index := 2, bytes := List.replicate 16 0 }] := by decide

/-- V51, third row. -/
theorem test_stripEmit_notValid :
    let t := ran (.stripEmit 1) (loaded cfgS 0 0)
    (t.faultCode, t.faultInfo, t.statusWord) = (0x1304, 0x1301, 0x000C) := by decide

/-- P2: the page of strip 1 with both sub-tile offsets and two sprites. -/
theorem test_renderStrip : (ran (.renderStrip 1)
      ((withObj 1 10 0 0x80 (withObj 0 4 11 0x02 (loaded cfgS 0x000B 0x0005))).setObjCount 2)).pages =
    [{ index := 1, bytes := [0x99, 0xA1, 0xA9, 0xB1, 0xB1, 0x31, 0x31, 0x31, 0x31, 0x31, 0x33, 0x33, 0x33, 0x83,
      0x83, 0x93] }] := by decide

/-- V54, first item. -/
theorem test_renderStrip_fault :
    let t := ran (.renderStrip 0) (loaded (cfgBad 1) 0 0)
    (t.faultCode, t.faultInfo, t.faultLoc, t.statusWord, t.pages, t.stripBytes) =
      (0x2005, 0x0007, 0x0001, 0x001C, [], List.replicate 16 0) := by decide

/-- V39c. -/
theorem test_renderFrame : (ran (.renderFrame 0) (loaded cfgS 0x000B 0x0005)).pages.map (fun p => (p.index, p.bytes)) =
    [(0, [0x18, 0x20, 0x28, 0x30, 0x38, 0x81, 0x89, 0x91, 0x99, 0xA1, 0xA9, 0xB1, 0xB9, 0x01, 0x09, 0x11]),
      (1, [0x99, 0xA1, 0xA9, 0xB1, 0xB9, 0x01, 0x09, 0x11, 0x19, 0x21, 0x29, 0x31, 0x39, 0x82, 0x8A, 0x92]),
      (2, [0x19, 0x21, 0x29, 0x31, 0x39, 0x82, 0x8A, 0x92, 0x9A, 0xA2, 0xAA, 0xB2, 0xBA, 0x02, 0x0A, 0x12])] := by
  decide

/-- V54, second item: page 0 is emitted, strip 1 faults. -/
theorem test_renderFrame_fault :
    let t := ran (.renderFrame 0) (loaded (cfgBad 4) 0 0)
    (t.faultCode, t.faultInfo, t.faultLoc, t.pages.map (fun p => p.index)) = (0x2105, 0x0107, 0x0004, [0]) := by
  decide

/-- V50, third row: an illegal OP with a bad ARG. -/
theorem test_illegal :
    let t := nextOr .reset (step (latched 0x03FF))
    (t.faultCode, t.faultInfo, t.faultLoc, t.statusWord) = (0x0301, 0x03FF, 0x0000, 0x0004) := by decide

/-- V50, fourth row. -/
theorem test_nop_badOperand :
    let t := ran (.nop 1) (State.powerOn cfgS)
    (t.faultCode, t.faultInfo, t.statusWord) = (0x0002, 0x0001, 0x0004) := by decide

/-! ### Vectors of the host interface -/

/-- V42: OBJ_COUNT is clipped, an object word keeps bits 7:0, CTRL keeps bits 3:0. -/
theorem test_write_objCount : ((State.powerOn cfgS).hostWrite 0x005 0x1234).objCount = 4 := by decide
theorem test_write_objX : (((State.powerOn cfgS).hostWrite 0x400 0x1234).hostRead 0x400) = 0x0034 := by decide
theorem test_write_ctrl : (((State.powerOn cfgS).hostWrite 0x000 0xFFFF).hostRead 0x000) = 0x000F := by decide

/-- V41: a write while busy is dropped with WR_IGNORED. -/
theorem test_write_busy :
    let t := (latched 0x2100).hostWrite 0x003 8
    (t.scrollX, t.statusWord) = (0x0000, 0x0021) := by decide

/-- V43: NOP done with DONE_IE set raises IRQ. -/
theorem test_irq : (ran (.nop 0) ((State.powerOn cfgS).hostWrite 0x000 0x0007)).statusWord = 0x0042 := by decide

/-- V44, on CFG-REF. -/
theorem test_hardwired : (State.reset.hostRead 0x00A, State.reset.hostRead 0x00B, State.reset.hostRead 0x00C,
    State.reset.hostRead 0x00D, State.reset.hostRead 0x00E) = (0x0810, 0x0008, 0x000A, 0x0002, 0x0001) := by decide

/-- V52: a CMD write while FAULT = 1 is dropped; CLRFAULT keeps the record. -/
theorem test_sticky :
    let t := (ran (.nop 1) (State.powerOn cfgS)).hostWrite 0x002 0x0000
    (t.statusWord, (t.hostWrite 0x001 0x0024).statusWord, (t.hostWrite 0x001 0x0024).faultCode) =
      (0x0024, 0x0000, 0x0002) := by decide

/-- Rule R119: a poll of WAIT while BUSY reads STATUS and repeats; the poll that reads BUSY = 0 is the last. -/
theorem test_wait :
    let t := nextOr .reset (step (((latched 0x2100).setScript [.wait]).setTurns [.host, .sink (some 1)]))
    let u := nextOr .reset (step (hostNext .wait))
    (t.replies, t.script, t.turns, u.replies, u.script) =
      ([0x0001], [.wait], [.sink (some 1)], [0x0000], []) := by decide

/-- V61: a reset while a command is latched. -/
theorem test_reset_busy :
    let t := nextOr .reset (step ((latched 0x2100).setTurns [.reset]))
    (t.busy, t.ctrlWord, t.statusWord, t.resets) = (false, 0x0003, 0x0000, 1) := by decide

/-! ### Witnesses: for every obligation with hypotheses, states and operands that meet them together

Where a statement has several clauses, one witness each, at a boundary of its range. -/

theorem witness_EncodeOfDecode : decode 0x13FF = .ok (.stripEmit 0xFF) := by decide

theorem witness_StepRunsDecodedCommand :
    cfgS.wf = true ∧ (latched 0x2000).sequencer = some { word := 0x2000, strip := 0 } ∧
      decode 0x2000 = .ok (.renderStrip 0) ∧ (latched 0x2000).turns = [] ∧
      ((latched 0x2000).setTurns [.engine, .host]).turns = .engine :: [.host] := by decide

theorem witness_IllegalWordFaults :
    (latched 0x03FF).cfg.wf = true ∧ (latched 0x03FF).sequencer = some { word := 0x03FF, strip := 0 } ∧
      wordOp 0x03FF ∉ ([0x00, 0x01, 0x02, 0x10, 0x11, 0x12, 0x13, 0x20, 0x21] : List Byte) ∧
      (latched 0x03FF).turns = [] ∧ ((latched 0x03FF).setTurns [.engine]).turns = .engine :: [] := by decide

theorem witness_BadOperandFaults :
    (Instr.nop 1).wellFormed cfgS = false ∧ (Instr.renderFrame 0xFF).wellFormed cfgS = false ∧
      (Instr.stripBg 3).wellFormed cfgS = false ∧ (Instr.renderStrip 0xFF).wellFormed cfgS = false := by decide

theorem witness_StatePreconditions :
    (Instr.pfAdjust 0).wellFormed cfgS = true ∧ (Instr.renderStrip 2).wellFormed cfgS = true ∧
      (State.powerOn cfgS).status.pfValid = false ∧ (Instr.stripEmit 2).wellFormed cfgS = true ∧
      (State.powerOn cfgS).status.stripValid = false ∧ (Instr.nop 0).wellFormed cfgS = true := by decide

/-- A latched command from reset, whatever the turns are. -/
theorem inv_latched (w : Word) (l : List Turn) : ((latched w).setTurns l).Inv := by
  constructor <;>
    simp [latched, State.accept, State.setTurns, State.powerOn, Memory.wf, State.busy]
  decide

theorem witness_StepKeepsInvariant :
    ((latched 0x1000).setTurns []).Inv ∧ isNext (step ((latched 0x1000).setTurns [])) = true :=
  ⟨inv_latched _ _, by decide⟩

theorem witness_ConfigurationNeverChanges :
    isNext (step (latched 0x2100)) = true ∧ isNext (step ((latched 0x2100).setTurns [.reset])) = true := by decide

/-- The engine's turn on another command, and a host's turn while PF_RELOAD is latched. -/
theorem witness_PlayfieldOnlyRefreshed :
    (isNext (step (latched 0x1000)) = true ∧ (latched 0x1000).nextTurn ≠ .reset ∧
      ((latched 0x1000).nextTurn = .engine →
        ∀ q, (latched 0x1000).sequencer = some q → wordOp q.word ≠ 0x01 ∧ wordOp q.word ≠ 0x02)) ∧
    (let s := (latched 0x0100).setTurns [.host]
     isNext (step s) = true ∧ s.nextTurn ≠ .reset ∧
        (s.nextTurn = .engine → ∀ q, s.sequencer = some q → wordOp q.word ≠ 0x01 ∧ wordOp q.word ≠ 0x02)) := by
  refine ⟨⟨by decide, by decide, fun _ q hq => ?_⟩, by decide, by decide, fun h => absurd h (by decide)⟩
  have : q = { word := 0x1000, strip := 0 } := by simpa [latched, State.accept] using hq.symm
  subst this
  decide

/-- Both bits set; PF_RELOAD sets PF_VALID; STRIP_CLEAR sets STRIP_VALID. -/
theorem witness_ValidBitsSetAndCleared :
    (let s := (ran (.stripClear 0) (loaded cfgS 0 0)).accept 0x0000
     isNext (step s) = true ∧ s.nextTurn ≠ .reset ∧ s.status.pfValid = true ∧ s.status.stripValid = true) ∧
    (let s := latched 0x0100
     isNext (step s) = true ∧ s.nextTurn ≠ .reset ∧ s.status.pfValid = false ∧
        (nextOr s (step s)).status.pfValid = true) ∧
    (let s := latched 0x1000
     isNext (step s) = true ∧ s.nextTurn ≠ .reset ∧ s.status.stripValid = false ∧
        (nextOr s (step s)).status.stripValid = true) := by decide

/-- A fault; a completion; a dropped write; a STATUS write that clears all three flags; an accepted command that clears
DONE. -/
theorem witness_FlagsAndFaultRecordCauses :
    (let s := latched 0x3000
     isNext (step s) = true ∧ s.nextTurn ≠ .reset ∧ (nextOr s (step s)).faultCode ≠ s.faultCode ∧
        s.status.fault = false ∧ (nextOr s (step s)).status.fault = true) ∧
    (let s := latched 0x0000
     isNext (step s) = true ∧ s.nextTurn ≠ .reset ∧ s.status.done = false ∧
        (nextOr s (step s)).status.done = true) ∧
    (let s := ((latched 0x2100).setScript [.write 0x003 8]).setTurns [.host]
     isNext (step s) = true ∧ s.nextTurn ≠ .reset ∧ s.status.wrIgnored = false ∧
        (nextOr s (step s)).status.wrIgnored = true) ∧
    (let s := (nextOr .reset (step (latched 0x3000))).dropWrite.setScript [.write 0x001 0x0024]
     isNext (step s) = true ∧ s.nextTurn ≠ .reset ∧ s.faulted = true ∧ s.status.fault = true ∧
        (nextOr s (step s)).status.fault = false ∧ s.status.wrIgnored = true ∧
        (nextOr s (step s)).status.wrIgnored = false) ∧
    (let s := (ran (.nop 0) (State.powerOn cfgS)).setScript [.write 0x002 0x1000]
     isNext (step s) = true ∧ s.nextTurn ≠ .reset ∧ s.status.done = true ∧
        (nextOr s (step s)).status.done = false) := by decide

theorem witness_PagesOnlyAppended :
    (let s := (ran (.stripClear 0) (State.powerOn cfgS)).accept 0x1302
     isNext (step s) = true ∧ s.nextTurn ≠ .reset ∧ (nextOr s (step s)).pages ≠ s.pages) ∧
    (isNext (step (hostNext .wait)) = true ∧ (hostNext .wait).nextTurn ≠ .reset ∧
      (hostNext .wait).busy = false) := by decide

theorem witness_InputsHeldWhileBusy :
    let s := ((latched 0x2100).setScript [.write 0x003 8]).setTurns [.host]
    isNext (step s) = true ∧ s.busy = true ∧ s.nextTurn ≠ .reset := by decide

theorem witness_CommandsKeepHostState :
    isNext (exec (.renderFrame 0) (loaded cfgS 0x000B 0x0005)) = true ∧
      isNext (exec (.stripBg 3) (State.powerOn cfgS)) = true := by decide

theorem witness_CommandEndsOneWay :
    let s := (latched 0x2100).setTurns []
    s.cfg.wf = true ∧ s.Inv ∧ s.nextTurn = .engine ∧ s.busy = true ∧ s.sinkRoom = none :=
  ⟨by decide, inv_latched _ _, rfl, rfl, rfl⟩

theorem witness_IllFormedConfigurationRefused :
    (State.powerOn { cfgS with mapHeight := 6 }).cfg.wf = false ∧ (State.powerOn cfgS).cfg.wf = true := by decide

theorem witness_ResetEventValues :
    let s := (latched 0x2100).setTurns [.reset, .host]
    s.cfg.wf = true ∧ s.nextTurn = .reset := by decide

theorem witness_HostReadsAfterReset :
    cfgS.wf = true ∧ 0x800 ≤ (0x800 : HostAddr).toNat ∧ 0x800 ≤ (0x1FFF : HostAddr).toNat := by decide

/-- A host with no access left, a read, a write, a WAIT while idle and one while busy; the idle engine; a sink that stalls. -/
theorem witness_EachTurnIsOneEvent :
    cfgS.wf = true ∧ (State.powerOn cfgS).nextTurn = .host ∧ (State.powerOn cfgS).script = [] ∧
      (hostNext (.read 0x1FFF)).nextTurn = .host ∧ (hostNext (.read 0x1FFF)).script = .read 0x1FFF :: [] ∧
      (hostNext (.write 0x002 0x3000)).nextTurn = .host ∧
      (hostNext (.write 0x002 0x3000)).script = .write 0x002 0x3000 :: [] ∧
      (hostNext .wait).nextTurn = .host ∧ (hostNext .wait).busy = false ∧ (hostNext .wait).script = .wait :: [] ∧
      (let s := ((latched 0x2100).setScript [.wait]).setTurns [.host]
       s.nextTurn = .host ∧ s.busy = true ∧ s.script = .wait :: []) ∧
      (let s := (State.powerOn cfgS).setTurns [.engine]
       s.nextTurn = .engine ∧ s.busy = false) ∧
      ((latched 0x2100).setTurns [.sink (some 0)]).nextTurn = .sink (some 0) := by decide

theorem witness_HardwiredRegisters :
    cfgS.wf = true ∧ 0x00A ≤ (0x00A : HostAddr).toNat ∧ (0x00E : HostAddr).toNat ≤ 0x00E := by decide

theorem witness_StatusAndIrqRead : 7 ≤ 7 ∧ ((State.powerOn cfgS).hostRead 0x001).getLsbD 7 = false := by decide

/-- The last playfield cell, and the first word past it. -/
theorem witness_PlayfieldWindow :
    cfgS.wf = true ∧ 0x800 ≤ (0x813 : HostAddr).toNat ∧ (0x813 : HostAddr).toNat < 0x1000 ∧
      (4 < cfgS.rows ∧ 3 < cfgS.cols ∧ (0x813 : HostAddr).toNat = 0x800 + (4 * cfgS.cols + 3)) ∧
      0x800 + cfgS.rows * cfgS.cols ≤ (0x814 : HostAddr).toNat ∧ (0x814 : HostAddr).toNat < 0x1000 := by decide

/-- The last strip byte, and the first word past it. -/
theorem witness_StripWindow :
    cfgS.wf = true ∧ 0x1000 ≤ (0x100F : HostAddr).toNat ∧
      (15 < cfgS.width ∧ (0x100F : HostAddr).toNat = 0x1000 + 15) ∧
      0x1000 + cfgS.width ≤ (0x1010 : HostAddr).toNat := by decide

/-- The last field of the last entry, idle and busy; its reserved word; the first word past the list. -/
theorem witness_ObjectWindow :
    cfgS.wf = true ∧ (0x40E : HostAddr).toNat = 0x400 + 4 * 3 + 2 ∧ (0x40E : HostAddr).toNat < 0x800 ∧
      3 < cfgS.objCap ∧ (State.powerOn cfgS).busy = false ∧ (latched 0x2100).busy = true ∧
      (0x40F : HostAddr).toNat = 0x400 + 4 * 3 + 3 ∧
      (cfgS.objCap ≤ 4 ∧ (0x410 : HostAddr).toNat = 0x400 + 4 * 4 + 0) ∧
      (0x7FF : HostAddr).toNat = 0x400 + 4 * 255 + 3 ∧
      ((State.powerOn cfgS).setObj [(14, 0xFF#8)]).obj.read (4 * 3 + 2) = some 0xFF := by decide

/-- One address at an end of each of the four ranges. -/
theorem witness_UnmappedAddresses :
    cfgS.wf = true ∧ (0x010 ≤ (0x3FF : HostAddr).toNat ∧ (0x3FF : HostAddr).toNat ≤ 0x3FF) ∧
      (0x400 + 4 * cfgS.objCap ≤ (0x410 : HostAddr).toNat ∧ (0x410 : HostAddr).toNat ≤ 0x7FF) ∧
      (0x800 + cfgS.rows * cfgS.cols ≤ (0x814 : HostAddr).toNat ∧ (0x814 : HostAddr).toNat ≤ 0xFFF) ∧
      0x1000 + cfgS.width ≤ (0x1010 : HostAddr).toNat := by decide

/-- The two ends of the read-only range, and a state in which the data registers read different values. -/
theorem witness_RegisterReads :
    0x006 ≤ (0x006 : HostAddr).toNat ∧ (0x00F : HostAddr).toNat ≤ 0x00F ∧
      (let t := ran (.stripBg 2) (loaded (cfgBad 13) 0 3)
       [t.hostRead 0x003, t.hostRead 0x004, t.hostRead 0x006, t.hostRead 0x007, t.hostRead 0x008] =
        [0x0000, 0x0003, 0x1105, 0x0207, 0x000D]) := by decide

/-- A busy state with a writable and a read-only address. -/
theorem witness_BusyWritesDropped :
    (latched 0x2100).busy = true ∧ (0x40E : HostAddr) ≠ 0x001 ∧ (0x40E : HostAddr).toNat % 4 ≠ 3 ∧
      (0x40F : HostAddr) ≠ 0x001 ∧ (0x40F : HostAddr).toNat % 4 = 3 := by decide

/-- An idle state with FAULT = 1, and one with FAULT = 0. -/
theorem witness_CommandAcceptance :
    (ran (.nop 1) (State.powerOn cfgS)).busy = false ∧ (ran (.nop 1) (State.powerOn cfgS)).status.fault = true ∧
      (State.powerOn cfgS).busy = false ∧ (State.powerOn cfgS).status.fault = false := by decide

/-- CFG-S after NOP with ARG = 1 faulted from reset. -/
def faultedState : State := (State.powerOn cfgS).raiseFault 0x00 .badOperand 0x0001 0x0000

theorem inv_faulted : faultedState.Inv := by
  constructor <;> simp [faultedState, State.raiseFault, State.powerOn, Memory.wf, State.busy, faultCodeWord]
  decide

theorem witness_StickyFault :
    faultedState.Inv ∧ faultedState.status.fault = true ∧ (0x40E : HostAddr).toNat = 0x400 + 4 * 3 + 2 ∧
      3 < faultedState.cfg.objCap := ⟨inv_faulted, rfl, by decide, by decide⟩

theorem witness_StatusWriteClears : ((latched 0x2100).setTurns []).Inv ∧ ((latched 0x2100).setTurns []).busy = true :=
  ⟨inv_latched _ _, rfl⟩

theorem witness_IdleRegisterWrites : cfgS.wf = true ∧ (State.powerOn cfgS).busy = false := by decide

theorem witness_NopCompletes : (0x00 : Byte) = 0x00 ∧ (0x01 : Byte) ≠ 0x00 := by decide

/-- The last cell of the last logical row; the first address past the cells. -/
theorem witness_PfReloadCompletes :
    (0x00 : Byte) = 0x00 ∧ (0xFF : Byte) ≠ 0x00 ∧ 4 < cfgS.rows ∧ 3 < cfgS.cols ∧ cfgS.rows * cfgS.cols ≤ 20 := by
  decide

theorem witness_StripClearCompletes :
    (0x00 : Byte) = 0x00 ∧ (0xFF : Byte) ≠ 0x00 ∧ 15 < cfgS.width ∧ cfgS.width ≤ 16 := by decide

/-- PF_VALID = 1 after a reload; a lower and an upper logical row of the border. -/
theorem witness_PfAdjustCompletes :
    (loaded cfgS 0 0).status.pfValid = true ∧ (3 = cfgS.rows - 2 ∧ 4 = cfgS.rows - 1 ∧ 3 < cfgS.cols) ∧
      2 < cfgS.rows - 2 := by decide

theorem consistent_loaded7 : ((loaded (cfgMap 7) 0 0).setScrollY 16).Consistent 0 := by
  have h : ∀ k, k < 5 → ∀ c, c < 4 → ((loaded (cfgMap 7) 0 0).setScrollY 16).cell ((0 + k) % 5) c =
      mapByte (cfgMap 7) ((0 + k) % 7) c := by decide
  exact fun k c hk hc => h k hk c hc

theorem consistent_loaded5 : ((loaded cfgS 0 0).setScrollY 0xFFFF).Consistent 0 := by
  have h : ∀ k, k < 5 → ∀ c, c < 4 → ((loaded cfgS 0 0).setScrollY 0xFFFF).cell ((0 + k) % 5) c =
      mapByte cfgS ((0 + k) % 5) c := by decide
  exact fun k c hk hc => h k hk c hc

/-- Two rows further on with MAP_HEIGHT = 7, and the farthest origin where MAP_HEIGHT divides ROWS. -/
theorem witness_AdjustEqualsReload :
    (let s := (loaded (cfgMap 7) 0 0).setScrollY 16
     s.cfg.wf = true ∧ s.status.pfValid = true ∧ s.Consistent 0 ∧ s.scrollY.toNat / 8 = 0 + 2) ∧
    (let s := (loaded cfgS 0 0).setScrollY 0xFFFF
     s.cfg.wf = true ∧ s.status.pfValid = true ∧ s.Consistent 0 ∧ s.cfg.mapHeight ∣ s.cfg.rows) :=
  ⟨⟨by decide, by decide, consistent_loaded7, by decide⟩, ⟨by decide, by decide, consistent_loaded5, by decide⟩⟩

theorem bgReady_loaded : ∀ k, k < 3 → (loaded cfgS 0x000B 0x0005).bgReady k := by
  have h : ∀ k, k < 3 → ∀ x, x < 16 → ∀ rc ∈ (loaded cfgS 0x000B 0x0005).sampledAt k x,
      tileInRange cfgS ((loaded cfgS 0x000B 0x0005).cell rc.1 rc.2) = true := by decide
  exact fun k hk x hx => h k hk x hx

theorem witness_StripBgCompletes :
    (2#8).toNat < cfgS.vr ∧ (loaded cfgS 0x000B 0x0005).status.pfValid = true ∧
      (loaded cfgS 0x000B 0x0005).bgReady (2#8).toNat :=
  ⟨by decide, by decide, bgReady_loaded 2 (by decide)⟩

/-- The current row at x = 8 (cell (0, 1) is bad), and the next row at x = 8 (cell (3, 1) is bad, bYOff = 3). -/
theorem witness_StripBgTileFault :
    (let s := loaded (cfgBad 1) 0 0
     (0#8).toNat < s.cfg.vr ∧ s.status.pfValid = true ∧ 8 < s.cfg.width ∧
        (∀ x', x' < 8 → ∀ rc ∈ s.sampledAt 0 x', tileInRange s.cfg (s.cell rc.1 rc.2) = true) ∧
        s.cfg.tileCount ≤ (s.cell (s.row0 0) (s.bgCol 8)).toNat) ∧
    (let s := loaded (cfgBad 13) 0 3
     (2#8).toNat < s.cfg.vr ∧ s.status.pfValid = true ∧ 8 < s.cfg.width ∧
        (∀ x', x' < 8 → ∀ rc ∈ s.sampledAt 2 x', tileInRange s.cfg (s.cell rc.1 rc.2) = true) ∧
        (s.cell (s.row0 2) (s.bgCol 8)).toNat < s.cfg.tileCount ∧ s.bYOff ≠ 0 ∧
        s.cfg.tileCount ≤ (s.cell (s.row1 2) (s.bgCol 8)).toNat) := by decide

theorem witness_VerticalShiftBits : (1 ≤ 1 ∧ 1 < 8 ∧ 7 < 8) ∧ (1 ≤ 7 ∧ 7 < 8 ∧ 0 < 8) := by decide

theorem consistent_loaded : (loaded cfgS 0x000B 0x0005).Consistent (loaded cfgS 0x000B 0x0005).tY := by
  have h : ∀ k, k < 5 → ∀ c, c < 4 →
      (loaded cfgS 0x000B 0x0005).cell (((loaded cfgS 0x000B 0x0005).tY + k) % 5) c =
        mapByte cfgS (((loaded cfgS 0x000B 0x0005).tY + k) % 5) c := by decide
  exact fun k c hk hc => h k hk c hc

theorem witness_BackgroundShowsWorld :
    let s := loaded cfgS 0x000B 0x0005
    s.cfg.wf = true ∧ (2#8).toNat < s.cfg.vr ∧ s.status.pfValid = true ∧ s.bgReady (2#8).toNat ∧ s.Consistent s.tY ∧
      15 < s.cfg.width ∧ s.ctrl.fineXEn = true ∧ s.ctrl.fineYEn = true :=
  ⟨by decide, by decide, by decide, bgReady_loaded 2 (by decide), consistent_loaded, by decide, by decide, by decide⟩

theorem witness_TileScrollTranslates : (0xFFFF : Word).toNat = (scrolled cfgS 0xFFF7 0).scrollX.toNat + 8 := by decide

/-- Two live entries on CFG-SP: the first visible on strip 1, the second not. -/
def twoObj : State := (withObj 1 0 250 0x84 (withObj 0 14 4 0x80 (strip55 1))).setObjCount 2

theorem entryReady_setObjCount (s : State) (v : Byte) (k i : Nat) :
    (s.setObjCount v).entryReady k i ↔ s.entryReady k i := Iff.rfl

theorem spritesReady_twoObj : twoObj.spritesReady 1 := by
  intro j hj
  have hj : j < 2 := hj
  interval_cases j
  · exact ⟨{ x := 14, y := 4, t := 0x80 }, by decide, by decide⟩
  · exact ⟨{ x := 0, y := 250, t := 0x84 }, by decide, by decide⟩

theorem witness_StripSpritesDrawsPixels :
    (1#8).toNat < twoObj.cfg.vr ∧ twoObj.status.stripValid = true ∧ twoObj.spritesReady (1#8).toNat :=
  ⟨by decide, by decide, spritesReady_twoObj⟩

/-- V14: below the strip, above it, and right of the display, the last with a sprite index out of range. -/
def threeHidden : State :=
  (withObj 2 16 8 0x04 (withObj 1 0 0 0x00 (withObj 0 0 16 0x00 (strip55 1)))).setObjCount 3

theorem witness_InvisibleEntriesSkipped :
    (1#8).toNat < threeHidden.cfg.vr ∧ threeHidden.status.stripValid = true ∧
      (∀ j, j < threeHidden.objCount.toNat → ∃ o, threeHidden.objEntry j = some o ∧
        (8 * (1#8).toNat + 8 ≤ o.y.toNat ∨ o.y.toNat + (if o.t.getLsbD 7 then 16 else 8) ≤ 8 * (1#8).toNat ∨
          threeHidden.cfg.width ≤ o.x.toNat)) := by
  refine ⟨by decide, by decide, fun j hj => ?_⟩
  have hj : j < 3 := hj
  interval_cases j
  · exact ⟨{ x := 0, y := 16, t := 0x00 }, by decide, by decide⟩
  · exact ⟨{ x := 0, y := 0, t := 0x00 }, by decide, by decide⟩
  · exact ⟨{ x := 16, y := 8, t := 0x04 }, by decide, by decide⟩

/-- V55, first row: slot 0 is valid, slot 1 is the lowest bad slot. -/
def badSlot : State := (withObj 1 0 0 0x04 (withObj 0 0 0 0x00 (strip55 0))).setObjCount 3

theorem entryReady_badSlot : ∀ i, i < 1 → badSlot.entryReady 0 i := by
  intro i hi
  interval_cases i
  exact ⟨{ x := 0, y := 0, t := 0x00 }, by decide, by decide⟩

theorem witness_SpriteIndexFault :
    (0#8).toNat < badSlot.cfg.vr ∧ badSlot.status.stripValid = true ∧ 1 < badSlot.objCount.toNat ∧
      (∀ i, i < 1 → badSlot.entryReady (0#8).toNat i) ∧
      badSlot.objEntry 1 = some { x := 0, y := 0, t := 0x04 } ∧
      visible badSlot.cfg { x := 0, y := 0, t := 0x04 } (0#8).toNat = true ∧
      spriteInRange badSlot.cfg 0x04 = false :=
  ⟨by decide, by decide, by decide, entryReady_badSlot, by decide, by decide, by decide⟩

theorem bgReady_twoObj : twoObj.bgReady 1 := by
  have h : ∀ x, x < 16 → ∀ rc ∈ twoObj.sampledAt 1 x, tileInRange cfgSP (twoObj.cell rc.1 rc.2) = true := by decide
  exact fun x hx => h x hx

theorem bgReady_setObjCount (s : State) (v : Byte) (k : Nat) : (s.setObjCount v).bgReady k ↔ s.bgReady k := Iff.rfl

/-- The last live entry was never written, on strip 1 and, for a frame, on strip 0. -/
theorem witness_UnwrittenObjectStops :
    ((1#8).toNat < cfgSP.vr ∧ 2 < (twoObj.setObjCount 3).objCount.toNat ∧
      (∀ i, i < 2 → (twoObj.setObjCount 3).entryReady (1#8).toNat i) ∧ (twoObj.setObjCount 3).objEntry 2 = none ∧
      (twoObj.setObjCount 3).status.stripValid = true ∧ (twoObj.setObjCount 3).status.pfValid = true ∧
      (twoObj.setObjCount 3).bgReady (1#8).toNat) ∧
    (let s := (strip55 0).setObjCount 1
     (0#8).toNat < s.cfg.vr ∧ 0 < s.objCount.toNat ∧ (∀ i, i < 0 → s.entryReady (0#8).toNat i) ∧
        s.objEntry 0 = none ∧ s.status.pfValid = true ∧ s.bgReady (0#8).toNat ∧
        s.stripInProgress = (0#8).toNat) := by
  have h : ∀ x, x < 16 → ∀ rc ∈ (strip55 0).sampledAt 0 x,
      tileInRange cfgSP ((strip55 0).cell rc.1 rc.2) = true := by decide
  exact ⟨⟨by decide, by decide, fun i hi => (entryReady_setObjCount ..).2 (spritesReady_twoObj i hi), by decide,
    by decide, by decide, (bgReady_setObjCount ..).2 bgReady_twoObj⟩,
    by decide, by decide, fun i hi => absurd hi (Nat.not_lt_zero i), by decide, by decide,
    (bgReady_setObjCount ..).2 fun x hx => h x hx, by decide⟩

/-- CFG-SP with a 16×16 sprite that is all mask 0, and one entry of that type at the strip's right corner. -/
def opaqueState : State :=
  State.powerOn { cfgSP with spr16Rom := List.replicate 32 0x00#8 ++ List.replicate 32 0x81#8 }
def opaqueObj : Obj := { x := 15, y := 0, t := 0x80 }

/-- Sprite 1 of CFG-SP is transparent; the 16×16 sprite of `opaqueState` is opaque, and lights a pixel of the corner. -/
theorem witness_TransparencyLaws :
    (∀ i, i < sprSize 0x01 → ∀ q, q < sprSize 0x01 / 8 →
      maskByte (State.powerOn cfgSP).cfg 0x01 i q = 0xFF ∧ patternByte (State.powerOn cfgSP).cfg 0x01 i q = 0x00) ∧
    (7 < 8 ∧ (∀ i, i < sprSize opaqueObj.t → ∀ q, q < sprSize opaqueObj.t / 8 →
        maskByte opaqueState.cfg opaqueObj.t i q = 0x00) ∧
      covers opaqueState.cfg opaqueObj 15 (8 * 1 + 7) = true ∧
      (spritePixel opaqueState.cfg opaqueObj.t (15 - opaqueObj.x.toNat) (8 * 1 + 7 - opaqueObj.y.toNat)).2 = true) := by
  decide

/-- Two entries that meet in one pixel, the second with mask 0 there. -/
theorem witness_LaterEntryOnTop :
    covers cfgSP { x := 4, y := 0, t := 0x02 } 7 (8 * 0 + 7) = true ∧
      covers cfgSP { x := 0, y := 0, t := 0x00 } 7 (8 * 0 + 7) = true ∧
      (spritePixel cfgSP 0x00 (7 - 0) (8 * 0 + 7 - 0)).1 = false := by decide

theorem witness_SpritesTwiceIsOnce :
    (1#8).toNat < twoObj.cfg.vr ∧ twoObj.status.stripValid = true ∧ twoObj.spritesReady (1#8).toNat :=
  witness_StripSpritesDrawsPixels

/-- A sink with room, a sink with room for one page, and a sink that stalls. -/
theorem witness_StripEmitAppendsPage :
    (2#8).toNat < (strip55 2).cfg.vr ∧ (strip55 2).status.stripValid = true ∧ (strip55 2).sinkRoom ≠ some 0 ∧
      ((strip55 2).setSinkRoom (some 1)).sinkRoom ≠ some 0 ∧ ((strip55 2).setSinkRoom (some 0)).sinkRoom = some 0 := by
  decide

/-- Scene of program P2. -/
def scene : State := (withObj 1 10 0 0x80 (withObj 0 4 11 0x02 (loaded cfgS 0x000B 0x0005))).setObjCount 2

theorem sceneReady : ∀ k, k < 3 → scene.bgReady k ∧ scene.spritesReady k := by
  intro k hk
  refine ⟨bgReady_loaded k hk, fun j hj => ?_⟩
  have hj : j < 2 := hj
  have hs : spriteInRange scene.cfg 0x02 = true ∧ spriteInRange scene.cfg 0x80 = true := by decide
  interval_cases j
  · exact ⟨{ x := 4, y := 11, t := 0x02 }, by decide, fun _ => hs.1⟩
  · exact ⟨{ x := 10, y := 0, t := 0x80 }, by decide, fun _ => hs.2⟩

theorem witness_RenderStripIsItsSubSteps :
    (2#8).toNat < scene.cfg.vr ∧ scene.status.pfValid = true ∧ scene.bgReady (2#8).toNat ∧
      scene.spritesReady (2#8).toNat ∧ scene.sinkRoom ≠ some 0 :=
  ⟨by decide, by decide, (sceneReady 2 (by decide)).1, (sceneReady 2 (by decide)).2, by decide⟩

theorem witness_RenderStripCompletes :
    (0#8).toNat < scene.cfg.vr ∧ scene.status.pfValid = true ∧ scene.bgReady (0#8).toNat ∧
      scene.spritesReady (0#8).toNat ∧ scene.sinkRoom ≠ some 0 :=
  ⟨by decide, by decide, (sceneReady 0 (by decide)).1, (sceneReady 0 (by decide)).2, by decide⟩

theorem ready_setSinkRoom (s : State) (r : Option Nat) (k : Nat) :
    (s.setSinkRoom r).bgReady k ∧ (s.setSinkRoom r).spritesReady k ↔ s.bgReady k ∧ s.spritesReady k := Iff.rfl

theorem witness_RenderStripWaits :
    (2#8).toNat < (scene.setSinkRoom (some 0)).cfg.vr ∧ (scene.setSinkRoom (some 0)).status.pfValid = true ∧
      ((scene.setSinkRoom (some 0)).bgReady (2#8).toNat ∧ (scene.setSinkRoom (some 0)).spritesReady (2#8).toNat) ∧
      (scene.setSinkRoom (some 0)).sinkRoom = some 0 :=
  ⟨by decide, by decide, (ready_setSinkRoom ..).2 (sceneReady 2 (by decide)), by decide⟩

/-- `scene` with object 1 replaced by one of sprite index 5, visible on strip 1 (program P3). -/
def sceneBad : State := withObj 1 8 12 0x05 scene

theorem entryReady_sceneBad (k : Nat) : ∀ i, i < 1 → sceneBad.entryReady k i := by
  intro i hi
  have hs : spriteInRange sceneBad.cfg 0x02 = true := by decide
  interval_cases i
  exact ⟨{ x := 4, y := 11, t := 0x02 }, by decide, fun _ => hs⟩

theorem witness_RenderStripFaults :
    ((0#8).toNat < cfgS.vr ∧ (loaded (cfgBad 1) 0 0).status.pfValid = true ∧
      (loaded (cfgBad 1) 0 0).firstBadCell 0 = some (0, 1)) ∧
    ((1#8).toNat < sceneBad.cfg.vr ∧ sceneBad.status.pfValid = true ∧ sceneBad.bgReady (1#8).toNat ∧
      1 < sceneBad.objCount.toNat ∧ (∀ i, i < 1 → sceneBad.entryReady (1#8).toNat i) ∧
      sceneBad.objEntry 1 = some { x := 8, y := 12, t := 0x05 } ∧
      visible sceneBad.cfg { x := 8, y := 12, t := 0x05 } (1#8).toNat = true ∧
      spriteInRange sceneBad.cfg 0x05 = false) :=
  ⟨by decide, by decide, by decide, bgReady_loaded 1 (by decide), by decide, entryReady_sceneBad 1, by decide, by decide,
    by decide⟩

/-- `s` waiting at strip `m` of a frame. -/
def atStrip (m : Nat) (s : State) : State := { s with sequencer := some { word := 0x2100, strip := m } }

theorem ready_atStrip (m : Nat) (s : State) (k : Nat) :
    (atStrip m s).bgReady k ∧ (atStrip m s).spritesReady k ↔ s.bgReady k ∧ s.spritesReady k := Iff.rfl

/-- A sink that always takes a page; one with room for exactly VR pages; a frame resumed at its last strip with room for
one page. -/
theorem witness_RenderFrameCompletes :
    (scene.status.pfValid = true ∧ scene.stripInProgress = 0 ∧ 0 < scene.cfg.vr ∧
      (∀ n, scene.sinkRoom = some n → scene.cfg.vr - 0 ≤ n) ∧
      (∀ k, 0 ≤ k → k < scene.cfg.vr → scene.bgReady k ∧ scene.spritesReady k)) ∧
    (let s := scene.setSinkRoom (some 3)
     s.status.pfValid = true ∧ s.stripInProgress = 0 ∧ 0 < s.cfg.vr ∧
        (∀ n, s.sinkRoom = some n → s.cfg.vr - 0 ≤ n) ∧
        (∀ k, 0 ≤ k → k < s.cfg.vr → s.bgReady k ∧ s.spritesReady k)) ∧
    (let s := atStrip 2 (scene.setSinkRoom (some 1))
     s.status.pfValid = true ∧ s.stripInProgress = 2 ∧ 2 < s.cfg.vr ∧
        (∀ n, s.sinkRoom = some n → s.cfg.vr - 2 ≤ n) ∧
        (∀ k, 2 ≤ k → k < s.cfg.vr → s.bgReady k ∧ s.spritesReady k)) :=
  ⟨⟨by decide, by decide, by decide, by decide, fun k _ hk => sceneReady k hk⟩,
    ⟨by decide, by decide, by decide, by decide, fun k _ hk => (ready_setSinkRoom ..).2 (sceneReady k hk)⟩,
    ⟨by decide, by decide, by decide, by decide,
      fun k _ hk => (ready_atStrip ..).2 ((ready_setSinkRoom ..).2 (sceneReady k hk))⟩⟩

/-- V54: strip 1 reads the bad cell (1, 0) and strip 0 does not, with room for exactly the page of strip 0; program P3:
strip 1 meets the bad sprite, in a frame resumed at strip 1 while the sink takes nothing more. -/
theorem witness_RenderFrameFaultKeepsEarlierPages :
    (let s := (loaded (cfgBad 4) 0 0).setSinkRoom (some 1)
     s.status.pfValid = true ∧ s.stripInProgress = 0 ∧ 0 ≤ 1 ∧ 1 < s.cfg.vr ∧
        (∀ n, s.sinkRoom = some n → 1 - 0 ≤ n) ∧ (∀ k, 0 ≤ k → k < 1 → s.bgReady k ∧ s.spritesReady k) ∧
        s.firstBadCell 1 = some (1, 0)) ∧
    (let s := atStrip 1 (sceneBad.setSinkRoom (some 0))
     s.status.pfValid = true ∧ s.stripInProgress = 1 ∧ 1 ≤ 1 ∧ 1 < s.cfg.vr ∧
        (∀ n, s.sinkRoom = some n → 1 - 1 ≤ n) ∧ (∀ k, 1 ≤ k → k < 1 → s.bgReady k ∧ s.spritesReady k) ∧
        s.bgReady 1 ∧ 1 < s.objCount.toNat ∧
        (∀ i, i < 1 → s.entryReady 1 i) ∧ s.objEntry 1 = some { x := 8, y := 12, t := 0x05 } ∧
        visible s.cfg { x := 8, y := 12, t := 0x05 } 1 = true ∧ spriteInRange s.cfg 0x05 = false) := by
  have h : ∀ x, x < 16 → ∀ rc ∈ (loaded (cfgBad 4) 0 0).sampledAt 0 x,
      tileInRange (cfgBad 4) ((loaded (cfgBad 4) 0 0).cell rc.1 rc.2) = true := by decide
  refine ⟨⟨by decide, by decide, by decide, by decide, by decide, fun k _ hk => ?_, by decide⟩,
    by decide, by decide, by decide, by decide, fun n _ => Nat.zero_le n, fun k h1 h2 => absurd h1 (by omega),
    bgReady_loaded 1 (by decide), by decide, entryReady_sceneBad 1, by decide, by decide, by decide⟩
  obtain rfl : k = 0 := by omega
  exact (ready_setSinkRoom ..).2 ⟨fun x hx => h x hx, fun j hj => absurd hj (Nat.not_lt_zero j)⟩

/-- The sink stalls at once, after all pages but the last, and again in a resumed frame; then it takes exactly the rest. -/
theorem witness_SinkStallLosesNoPage :
    (let s := scene.setSinkRoom (some 0)
     s.status.pfValid = true ∧ s.stripInProgress = 0 ∧ s.sinkRoom = some 0 ∧ 0 + 0 < s.cfg.vr ∧
        (∀ k, 0 ≤ k → k < s.cfg.vr → s.bgReady k ∧ s.spritesReady k) ∧
        ∀ l, some 3 = some l → s.cfg.vr - (0 + 0) ≤ l) ∧
    (let s := scene.setSinkRoom (some 2)
     s.status.pfValid = true ∧ s.stripInProgress = 0 ∧ s.sinkRoom = some 2 ∧ 0 + 2 < s.cfg.vr ∧
        (∀ k, 0 ≤ k → k < s.cfg.vr → s.bgReady k ∧ s.spritesReady k)) ∧
    (let s := atStrip 1 (scene.setSinkRoom (some 1))
     s.status.pfValid = true ∧ s.stripInProgress = 1 ∧ s.sinkRoom = some 1 ∧ 1 + 1 < s.cfg.vr ∧
        (∀ k, 1 ≤ k → k < s.cfg.vr → s.bgReady k ∧ s.spritesReady k)) :=
  ⟨⟨by decide, by decide, by decide, by decide, fun k _ hk => (ready_setSinkRoom ..).2 (sceneReady k hk), by decide⟩,
    ⟨by decide, by decide, by decide, by decide, fun k _ hk => (ready_setSinkRoom ..).2 (sceneReady k hk)⟩,
    ⟨by decide, by decide, by decide, by decide,
      fun k _ hk => (ready_atStrip ..).2 ((ready_setSinkRoom ..).2 (sceneReady k hk))⟩⟩

end Sys2Proof.Tests
end

namespace Sys2Proof.Machine

/-! ### What is refused (rules R9, R272) -/

theorem step_of_not_wf {s : State} (h : s.cfg.wf = false) : step s = .refused .configNotWellFormed := by
  simp [step, h]

/-- The engine refuses nothing: an illegal word raises a fault and every command has a meaning (rules R255, R273). -/
theorem engineTurn_ne_refused (s : State) (r : Refusal) : engineTurn s ≠ .refused r := by
  unfold engineTurn
  split
  case h_1 => nofun
  case h_2 =>
    split
    case h_1 i _ => exact exec_ne_refused i s r
    case h_2 => nofun

theorem takeTurn_ne_refused (t : Turn) (s : State) (r : Refusal) : takeTurn t s ≠ .refused r := by
  cases t with
  | engine => exact engineTurn_ne_refused s r
  | host => nofun
  | sink _ => nofun
  | reset => nofun

/-- Settles O19: `step` refuses a configuration that is not well-formed, and no agent's turn refuses anything. -/
theorem illFormedConfigurationRefused : Obligations.IllFormedConfigurationRefused := by
  intro s
  refine ⟨step_of_not_wf, fun hwf r => ?_⟩
  rw [step_eq_takeTurn hwf rfl]
  exact takeTurn_ne_refused _ _ r

end Sys2Proof.Machine

namespace Sys2Proof.Machine
open Sys2Proof

/-! ### How a command ends, for a property its sub-steps keep -/

/-- The opcode of an encoded command (rules R110, R112). -/
@[simp] theorem wordOp_encode (i : Instr) : wordOp (encode i) = i.op := (Laws.EncodingFields.fields_append _ _).1

/-- `P` is kept by every update that the body of `i`, run in `s`, makes: those of the strip commands, and the playfield
refresh where `i` is PF_RELOAD or PF_ADJUST (rules R164, R166). -/
structure CommandClosed (i : Instr) (s : State) (P : State → Prop) : Prop extends RasterClosed s.cfg.vr P where
  reload : i.op = 0x01 → P (s.loadRows (List.range s.cfg.rows)).setPfOrigin.markPfValid
  adjust : i.op = 0x02 → s.status.pfValid = true → P (s.loadRows [s.cfg.rows - 2, s.cfg.rows - 1]).setPfOrigin

/-- The state after a command of word `w` that ran in `s` and whose body ended in `u` (rules R256, R276, R291). -/
inductive CommandEnd (w : Word) (s u : State) : State → Prop where
  | completed : CommandEnd w s u u.complete
  | faulted (code : FaultCode) (info loc : Word) : CommandEnd w s u (u.raiseFault (wordOp w) code info loc)
  | waits (k : Nat) (hk : k < s.cfg.vr) (hr : u.sinkRoom = some 0) : CommandEnd w s u (s.waitFor w k u)

/-- A command that answers a next state ended, in one of the three ways, from a state its sub-steps reach. -/
theorem exec_ends {i : Instr} {s t : State} {P : State → Prop} (hP : CommandClosed i s P) (hs : P s)
    (h : exec i s = .next t) : ∃ u, P u ∧ CommandEnd (encode i) s u t := by
  cases hi : isRaster i with
  | false =>
    rcases exec_not_raster i s hi with ⟨code, info, he⟩ | ⟨arg, -, he⟩ | ⟨arg, rfl, he⟩ | ⟨arg, rfl, hv, he⟩ <;>
      (rw [he] at h; cases h)
    · exact ⟨s, hs, .faulted ..⟩
    · exact ⟨s, hs, .completed⟩
    · exact ⟨_, hP.reload rfl, .completed⟩
    · exact ⟨_, hP.adjust rfl hv, .completed⟩
  | true =>
    obtain ⟨b, he, hb⟩ := exec_raster i s hi hP.toRasterClosed hs
    rcases finish_eq_next (he ▸ h) with ⟨u, rfl, rfl⟩ | ⟨u, code, info, loc, rfl, rfl⟩ | ⟨u, k, rfl, rfl⟩
    · exact ⟨u, hb, .completed⟩
    · exact ⟨u, hb, .faulted ..⟩
    · rcases exec_sequencer h with hn | ⟨j, hj, hq, hr⟩
      · cases hn
      · cases hq; exact ⟨u, hb, .waits k hj hr⟩

/-! ### What every update keeps of the invariant -/

section Inv

variable {s : State}

theorem State.Inv.setTurns (h : s.Inv) (l : List Turn) : (s.setTurns l).Inv := { h with }
theorem State.Inv.setScript (h : s.Inv) (l : List HostOp) : (s.setScript l).Inv := { h with }
theorem State.Inv.pushReply (h : s.Inv) (w : Word) : (s.pushReply w).Inv := { h with }
theorem State.Inv.setSinkRoom (h : s.Inv) (r : Option Nat) : (s.setSinkRoom r).Inv := { h with }
theorem State.Inv.setCtrl (h : s.Inv) (c : Ctrl) : (s.setCtrl c).Inv := { h with }
theorem State.Inv.setScrollX (h : s.Inv) (v : Word) : (s.setScrollX v).Inv := { h with }
theorem State.Inv.setScrollY (h : s.Inv) (v : Word) : (s.setScrollY v).Inv := { h with }
theorem State.Inv.dropWrite (h : s.Inv) : s.dropWrite.Inv := { h with }

/-- OBJ_COUNT takes no more than OBJ_CAP (rules R36, R260). -/
theorem objCountOf_le (c : Config) (v : Word) : (objCountOf c v).toNat ≤ c.objCap := by
  rw [objCountOf, BitVec.toNat_ofNat]
  exact (Nat.mod_le _ _).trans (min_le_right _ _)

theorem State.Inv.setObjCount (h : s.Inv) (v : Word) : (s.setObjCount (objCountOf s.cfg v)).Inv :=
  { h with objCountLe := objCountOf_le s.cfg v }

theorem State.Inv.writeObj (h : s.Inv) {i : Nat} (hi : i < 4 * s.cfg.objCap ∧ i % 4 ≠ 3) (b : Byte) :
    (s.setObj (s.obj.write i b)).Inv :=
  { h with
    objWf := Memory.wf_write i b h.objWf
    objRange := fun a ha => by
      by_cases hai : a = i
      · exact hai ▸ hi
      · exact h.objRange a (by rwa [State.setObj_obj, Memory.read_write_ne _ _ hai] at ha) }

/-- Clearing flags keeps the invariant (rule R257). -/
theorem State.Inv.statusWrite (h : s.Inv) (v : Word) : (s.statusWrite v).Inv :=
  { h with
    oneEnd := fun ⟨hd, hf⟩ => h.oneEnd ⟨(Bool.and_eq_true_iff.1 hd).1, (Bool.and_eq_true_iff.1 hf).1⟩
    busyClear := fun hb => by simp [Status.clear, h.busyClear hb]
    faultMarked := fun hf => h.faultMarked (Bool.and_eq_true_iff.1 hf).1 }

/-- Acceptance clears DONE and needs FAULT = 0 (rule R253). -/
theorem State.Inv.accept (h : s.Inv) (w : Word) (hv : 0 < s.cfg.vr) (hf : s.status.fault = false) :
    (s.accept w).Inv :=
  { h with
    oneEnd := fun hd => Bool.noConfusion hd.1
    busyClear := fun _ => ⟨rfl, hf⟩
    sequencerOk := fun q hq => by cases hq; exact hv }

theorem WriteEffect.inv {t : State} (he : WriteEffect s t) (h : s.Inv) (hv : 0 < s.cfg.vr) : t.Inv := by
  cases he with
  | ignored => exact h
  | dropped => exact h.dropWrite
  | status v => exact h.statusWrite v
  | accepted w _ hf => exact h.accept w hv hf
  | ctrl c _ => exact h.setCtrl c
  | scrollX v _ => exact h.setScrollX v
  | scrollY v _ => exact h.setScrollY v
  | objCount v _ => exact h.setObjCount v
  | obj i b _ hi => exact h.writeObj hi b

theorem HostEffect.inv {t : State} (he : HostEffect s t) (h : s.Inv) (hv : 0 < s.cfg.vr) : t.Inv := by
  cases he with
  | ended _ => exact h
  | read a rest _ => exact (h.setScript rest).pushReply _
  | poll _ _ _ => exact h.pushReply _
  | lastPoll rest _ _ => exact (h.setScript rest).pushReply _
  | write a v rest t _ _ he => exact he.inv (h.setScript rest) hv

/-- A reset event lands in the invariant from any state (rules R59, R301). -/
theorem State.resetEvent_inv (s : State) : s.resetEvent.Inv := by
  constructor <;> simp [State.powerOn, Memory.wf, State.busy]

/-! The updates of a command's body. -/

theorem State.Inv.fillStrip (h : s.Inv) (f : Nat → Byte) : (s.fillStrip f).Inv :=
  { h with
    stripWf := Memory.wf_writeAll _ h.stripWf
    stripRange := fun x hx => by
      rw [State.fillStrip_read] at hx
      split at hx
      · next hlt => exact hlt
      · exact h.stripRange x hx
    stripLoaded := fun _ x (hx : x < s.cfg.width) => by rw [State.fillStrip_read, if_pos hx]; rfl }

/-- A byte stays listed when another is written. -/
theorem Memory.isSome_write {m : Memory} {a : Nat} (x : Nat) (v : Byte) (h : (m.read a).isSome) :
    ((m.write x v).read a).isSome := by
  rw [Memory.read_write]
  split
  · rfl
  · exact h

theorem State.Inv.drawAll (h : s.Inv) (k : Nat) : (s.drawAll k).Inv := by
  have hwf : (s.drawAll k).strip.wf = true :=
    State.drawAll_induct k s (fun m => m.wf = true) h.stripWf fun _ x v _ hm => Memory.wf_write x v hm
  have hrange : ∀ x, ((s.drawAll k).strip.read x).isSome → x < s.cfg.width :=
    State.drawAll_induct k s (fun m => ∀ x, (m.read x).isSome → x < s.cfg.width) h.stripRange
      fun m x v hx hm y hy => by
        rw [Memory.read_write] at hy
        split at hy
        · next hyx => exact hyx ▸ hx
        · exact hm y hy
  have hloaded : s.status.stripValid = true → ∀ x, x < s.cfg.width → ((s.drawAll k).strip.read x).isSome :=
    fun hv => State.drawAll_induct k s (fun m => ∀ x, x < s.cfg.width → (m.read x).isSome) (h.stripLoaded hv)
      fun m x v _ hm y hy => Memory.isSome_write x v (hm y hy)
  rw [State.drawAll_eq]
  exact { h with stripWf := hwf, stripRange := hrange, stripLoaded := hloaded }

/-- A page of the display's own strip keeps the list of pages well-formed (rule R57). -/
theorem State.Inv.emitPage (h : s.Inv) {k : Nat} (hk : k < s.cfg.vr) :
    (s.emitPage { index := k, bytes := s.stripBytes }).Inv :=
  { h with
    pagesOk := fun p hp => by
      rcases List.mem_append.1 hp with hp | hp
      · exact h.pagesOk p hp
      · obtain rfl := List.mem_singleton.1 hp
        exact ⟨hk, by simp [State.stripBytes]⟩ }

/-- Rows loaded keep every cell that was loaded, and list cells of the torus only (rule R163). -/
theorem State.Inv.loadRows (h : s.Inv) (ks : List Nat) : (s.loadRows ks).Inv := by
  rw [State.loadRows_eq]
  exact { h with
    pfWf := s.loadRows_pf_wf ks h.pfWf
    pfRange := s.loadRows_pf_range ks h.pfRange
    pfLoaded := fun hv a ha => s.loadRows_isSome ks a (h.pfLoaded hv a ha) }

theorem State.Inv.setPfOrigin (h : s.Inv) : s.setPfOrigin.Inv := { h with }

/-- A full reload lists every cell of the torus (rule R164). -/
theorem State.loadRows_all_isSome (s : State) {a : Nat} (ha : a < s.cfg.rows * s.cfg.cols) :
    ((s.loadRows (List.range s.cfg.rows)).pf.read a).isSome := by
  have hcols : 0 < s.cfg.cols := by simp [Config.cols]
  obtain ⟨k, hk, hr⟩ := s.physRow_surj (Nat.div_lt_of_lt_mul (by rwa [Nat.mul_comm] at ha : a < s.cfg.cols * s.cfg.rows))
  have := s.loadRows_loaded (List.range s.cfg.rows) (List.mem_range.2 hk) (Nat.mod_lt a hcols)
  rwa [hr, Nat.div_add_mod'] at this

theorem State.Inv.reload (h : s.Inv) : (s.loadRows (List.range s.cfg.rows)).setPfOrigin.markPfValid.Inv :=
  { (h.loadRows _).setPfOrigin with
    pfLoaded := fun _ a ha => s.loadRows_all_isSome (by simpa using ha) }

/-! The ends of a command. -/

/-- A command completes with FAULT = 0, so DONE stands alone (rule R285). -/
theorem State.Inv.complete (h : s.Inv) (hf : s.status.fault = false) : s.complete.Inv :=
  { h with
    oneEnd := fun he => Bool.noConfusion (hf.symm.trans he.2)
    busyClear := fun hb => nomatch hb
    sequencerOk := fun _ hq => nomatch hq }

/-- The code of a fault record is 1 to 6, below four zero bits (rules R37, R271). -/
theorem faultCodeWord_code (op : Byte) (code : FaultCode) :
    (faultCodeWord op code).extractLsb' 4 4 = 0 ∧ 1 ≤ ((faultCodeWord op code).extractLsb' 0 4).toNat ∧
      ((faultCodeWord op code).extractLsb' 0 4).toNat ≤ 6 := by
  revert op
  cases code <;> decide

theorem State.Inv.raiseFault (h : s.Inv) (hd : s.status.done = false) (op : Byte) (code : FaultCode)
    (info loc : Word) : (s.raiseFault op code info loc).Inv :=
  { h with
    oneEnd := fun he => Bool.noConfusion (hd.symm.trans he.1)
    busyClear := fun hb => nomatch hb
    sequencerOk := fun _ hq => nomatch hq
    faultMarked := fun _ => rfl
    recordClear := fun hc => nomatch hc
    recordCode := fun _ => faultCodeWord_code op code }

/-- A waiting command shows every register as at acceptance, and the pages it handed over are pages (rule R291). -/
theorem State.Inv.waitFor (h : s.Inv) (hb : s.busy = true) {u : State} (hu : u.Inv) (hc : u.cfg = s.cfg) (w : Word)
    {k : Nat} (hk : k < s.cfg.vr) : (s.waitFor w k u).Inv :=
  { h with
    busyClear := fun _ => h.busyClear hb
    sequencerOk := fun q hq => by cases hq; exact hk
    pagesOk := fun p hp => hc ▸ hu.pagesOk p hp }

/-- The body of a command keeps the invariant while BUSY is 1. -/
theorem CommandClosed.inv (i : Instr) (h : s.Inv) (hb : s.busy = true) :
    CommandClosed i s fun u => u.Inv ∧ u.cfg = s.cfg ∧ u.busy = true where
  fill := fun u f ⟨hu, hc, hub⟩ => ⟨hu.fillStrip f, hc, hub⟩
  draw := fun u k ⟨hu, hc, hub⟩ => ⟨hu.drawAll k, by simp [hc], by rw [State.drawAll_eq]; exact hub⟩
  emit := fun u k hk _ ⟨hu, hc, hub⟩ => ⟨hu.emitPage (hc ▸ hk), hc, hub⟩
  reload := fun _ => ⟨h.reload, s.loadRows_cfg _, by rw [State.loadRows_eq]; exact hb⟩
  adjust := fun _ _ => ⟨(h.loadRows _).setPfOrigin, s.loadRows_cfg _, by rw [State.loadRows_eq]; exact hb⟩

/-- Every command keeps the invariant. -/
theorem State.Inv.exec (h : s.Inv) (hb : s.busy = true) {i : Instr} {t : State} (he : exec i s = .next t) : t.Inv := by
  obtain ⟨u, ⟨hu, hc, hub⟩, hend⟩ := exec_ends (CommandClosed.inv i h hb) ⟨h, rfl, hb⟩ he
  obtain ⟨hd, hf⟩ := hu.busyClear hub
  cases hend with
  | completed => exact hu.complete hf
  | faulted code info loc => exact hu.raiseFault hd _ code info loc
  | waits k hk _ => exact h.waitFor hb hu hc _ hk

end Inv

/-- A well-formed configuration has a strip (rule R8). -/
theorem Config.vr_pos_of_wf {c : Config} (h : c.wf = true) : 0 < c.vr := by
  simp only [Config.wf, Config.geometryOk, Bool.and_eq_true, decide_eq_true_eq] at h
  omega

/-- Settles O10: every turn of every agent keeps the invariant. -/
theorem stepKeepsInvariant : Obligations.StepKeepsInvariant := by
  intro s t hs h
  obtain ⟨hwf, he⟩ := step_cases h
  have hu := hs.setTurns s.turns.tail
  cases he with
  | idle _ _ => exact hu
  | command q i t _ hq _ ht => exact hu.exec (by simp [State.busy, hq]) ht
  | illegal q _ hq _ => exact hu.raiseFault (hs.busyClear (by simp [State.busy, hq])).1 ..
  | host t _ ht => exact ht.inv hu (Config.vr_pos_of_wf hwf)
  | sink room _ => exact hu.setSinkRoom room
  | reset _ => exact State.resetEvent_inv _

end Sys2Proof.Machine

namespace Sys2Proof.Machine
open Sys2Proof

/-! ### The frame of the engine's turn -/

/-- `u` differs from `s` at most in what a command's body may write: the playfield and PF_ORIGIN, the strip buffer, the
two valid bits and what the sink took (rules R49, R255). -/
structure State.BodyFrame (s u : State) : Prop where
  cfg : u.cfg = s.cfg
  ctrl : u.ctrl = s.ctrl
  done : u.status.done = s.status.done
  fault : u.status.fault = s.status.fault
  wrIgnored : u.status.wrIgnored = s.status.wrIgnored
  scrollX : u.scrollX = s.scrollX
  scrollY : u.scrollY = s.scrollY
  objCount : u.objCount = s.objCount
  faultCode : u.faultCode = s.faultCode
  faultInfo : u.faultInfo = s.faultInfo
  faultLoc : u.faultLoc = s.faultLoc
  obj : u.obj = s.obj
  faulted : u.faulted = s.faulted
  script : u.script = s.script
  turns : u.turns = s.turns
  replies : u.replies = s.replies
  resets : u.resets = s.resets

theorem State.BodyFrame.refl (s : State) : s.BodyFrame s := by constructor <;> rfl

/-- The playfield refresh writes the playfield, PF_ORIGIN and PF_VALID alone (rules R164, R166). -/
theorem State.BodyFrame.refresh (s : State) (ks : List Nat) :
    s.BodyFrame (s.loadRows ks).setPfOrigin ∧ s.BodyFrame (s.loadRows ks).setPfOrigin.markPfValid := by
  rw [State.loadRows_eq]
  exact ⟨by constructor <;> rfl, by constructor <;> rfl⟩

/-- Every command's body keeps the frame. -/
theorem CommandClosed.bodyFrame (i : Instr) (s : State) : CommandClosed i s s.BodyFrame where
  fill := fun _ _ h => { h with }
  draw := fun _ _ h => by rw [State.drawAll_eq]; exact { h with }
  emit := fun _ _ _ _ h => { h with }
  reload := fun _ => (State.BodyFrame.refresh s _).2
  adjust := fun _ _ => (State.BodyFrame.refresh s _).1

/-- A command's next state comes from a body that kept the frame. -/
theorem exec_ends_bodyFrame {i : Instr} {s t : State} (h : exec i s = .next t) :
    ∃ u, s.BodyFrame u ∧ CommandEnd (encode i) s u t :=
  exec_ends (CommandClosed.bodyFrame i s) (.refl s) h

/-- Settles O17: each of the three ends keeps what the body's frame keeps. -/
theorem commandsKeepHostState : Obligations.CommandsKeepHostState := by
  intro i s t h
  obtain ⟨u, hu, hend⟩ := exec_ends_bodyFrame h
  cases hend with
  | waits _ _ _ => exact ⟨rfl, rfl, rfl, rfl, rfl, rfl, rfl, rfl, rfl, rfl, rfl⟩
  | completed =>
    exact ⟨hu.cfg, hu.ctrl, hu.scrollX, hu.scrollY, hu.objCount, hu.obj, hu.wrIgnored, hu.script, hu.turns,
      hu.replies, hu.resets⟩
  | faulted _ _ _ =>
    exact ⟨hu.cfg, hu.ctrl, hu.scrollX, hu.scrollY, hu.objCount, hu.obj, hu.wrIgnored, hu.script, hu.turns,
      hu.replies, hu.resets⟩

/-! ### The playfield and the valid bits -/

/-- A host write leaves the playfield, PF_ORIGIN and the two valid bits alone (rule R252). -/
theorem WriteEffect.keeps_playfield_and_valid {s t : State} (he : WriteEffect s t) :
    t.pf = s.pf ∧ t.pfOrigin = s.pfOrigin ∧ t.status.pfValid = s.status.pfValid ∧
      t.status.stripValid = s.status.stripValid := by
  cases he <;> exact ⟨rfl, rfl, rfl, rfl⟩

theorem HostEffect.keeps_playfield_and_valid {s t : State} (he : HostEffect s t) :
    t.pf = s.pf ∧ t.pfOrigin = s.pfOrigin ∧ t.status.pfValid = s.status.pfValid ∧
      t.status.stripValid = s.status.stripValid := by
  cases he with
  | write a v rest t _ _ he => exact he.keeps_playfield_and_valid
  | _ => exact ⟨rfl, rfl, rfl, rfl⟩

/-- A command other than PF_RELOAD and PF_ADJUST leaves the playfield and PF_ORIGIN alone (rules R40, R50). -/
theorem exec_keeps_playfield {i : Instr} {s t : State} (h1 : i.op ≠ 0x01) (h2 : i.op ≠ 0x02)
    (h : exec i s = .next t) : t.pf = s.pf ∧ t.pfOrigin = s.pfOrigin := by
  have hP : CommandClosed i s fun u => u.pf = s.pf ∧ u.pfOrigin = s.pfOrigin :=
    { fill := fun _ _ hu => hu
      draw := fun _ _ hu => by simpa using hu
      emit := fun _ _ _ _ hu => hu
      reload := fun h => absurd h h1
      adjust := fun h => absurd h h2 }
  obtain ⟨u, hu, hend⟩ := exec_ends hP ⟨rfl, rfl⟩ h
  cases hend with
  | completed => exact hu
  | faulted _ _ _ => exact hu
  | waits _ _ _ => exact ⟨rfl, rfl⟩

/-- Outside reset, a step keeps the playfield, PF_ORIGIN and the valid bits, or it runs a command. -/
theorem StepEffect.keeps_or_command {s t : State} (he : StepEffect s t) (hr : s.nextTurn ≠ .reset) :
    (t.pf = s.pf ∧ t.pfOrigin = s.pfOrigin ∧ t.status.pfValid = s.status.pfValid ∧
        t.status.stripValid = s.status.stripValid) ∨
      ∃ q i, s.nextTurn = .engine ∧ s.sequencer = some q ∧ i.op = wordOp q.word ∧
        exec i (s.setTurns s.turns.tail) = .next t := by
  cases he with
  | idle _ _ => exact .inl ⟨rfl, rfl, rfl, rfl⟩
  | command q i t hn hq hd ht => exact .inr ⟨q, i, hn, hq, (decode_fields hd).1, ht⟩
  | illegal _ _ _ _ => exact .inl ⟨rfl, rfl, rfl, rfl⟩
  | host t _ ht => exact .inl ht.keeps_playfield_and_valid
  | sink _ _ => exact .inl ⟨rfl, rfl, rfl, rfl⟩
  | reset hn => exact absurd hn hr

/-- Settles O12: a step that is no command keeps both, and the two commands that refresh the playfield are excluded. -/
theorem playfieldOnlyRefreshed : Obligations.PlayfieldOnlyRefreshed := by
  intro s t h hr hw
  rcases (step_cases h).2.keeps_or_command hr with ⟨hpf, ho, -, -⟩ | ⟨q, i, hn, hq, hop, ht⟩
  · exact ⟨hpf, ho⟩
  · obtain ⟨h1, h2⟩ := hw hn q hq
    exact exec_keeps_playfield (s := s.setTurns s.turns.tail) (hop ▸ h1) (hop ▸ h2) ht

/-- No command clears a valid bit (rule R32). -/
theorem exec_keeps_valid {i : Instr} {s t : State} (h : exec i s = .next t) :
    (s.status.pfValid = true → t.status.pfValid = true) ∧
      (s.status.stripValid = true → t.status.stripValid = true) := by
  have hP : CommandClosed i s fun u => (s.status.pfValid = true → u.status.pfValid = true) ∧
      (s.status.stripValid = true → u.status.stripValid = true) :=
    { fill := fun _ _ hu => ⟨hu.1, fun _ => rfl⟩
      draw := fun _ _ hu => by simpa using hu
      emit := fun _ _ _ _ hu => hu
      reload := fun _ => ⟨fun _ => rfl, by simp⟩
      adjust := fun _ _ => by simp }
  obtain ⟨u, hu, hend⟩ := exec_ends hP ⟨id, id⟩ h
  cases hend with
  | completed => exact hu
  | faulted _ _ _ => exact hu
  | waits _ _ _ => exact ⟨id, id⟩

/-- PF_VALID is set by PF_RELOAD alone (rule R32). -/
theorem exec_sets_pfValid {i : Instr} {s t : State} (h : exec i s = .next t) (hs : s.status.pfValid = false)
    (ht : t.status.pfValid = true) : i.op = 0x01 := by
  by_contra hop
  have hP : CommandClosed i s fun u => u.status.pfValid = false :=
    { fill := fun _ _ hu => hu
      draw := fun _ _ hu => by simpa using hu
      emit := fun _ _ _ _ hu => hu
      reload := fun h => absurd h hop
      adjust := fun _ hv => by simp [hs] at hv }
  obtain ⟨u, hu, hend⟩ := exec_ends hP hs h
  cases hend with
  | completed => exact Bool.noConfusion (hu.symm.trans ht)
  | faulted _ _ _ => exact Bool.noConfusion (hu.symm.trans ht)
  | waits _ _ _ => exact Bool.noConfusion (hs.symm.trans ht)

/-- STRIP_SPRITES and STRIP_EMIT need a valid strip: without it they fault with nothing written (rule R275). -/
theorem finish_check_stripValid {i : Instr} {s : State} (hs : s.status.stripValid = false) (ok : Bool) (b : Body) :
    ∃ code, finish (encode i) s (check ok s .badOperand (encode i)
        (check s.status.stripValid s .stripNotValid (encode i) b)) =
      .next (s.raiseFault i.op code (encode i) 0) := by
  rw [hs, check_false]
  cases ok
  · exact ⟨.badOperand, by simp⟩
  · exact ⟨.stripNotValid, by simp⟩

/-- The commands that fill the strip buffer, and so set STRIP_VALID, are the four of rules R211, R216, R220 and R221. -/
theorem exec_sets_stripValid {i : Instr} {s t : State} (h : exec i s = .next t) (hs : s.status.stripValid = false)
    (ht : t.status.stripValid = true) : i.op ∈ ([0x10, 0x11, 0x20, 0x21] : List Byte) := by
  have faulted : ∀ {code info}, Host.Outcome.next (s.raiseFault i.op code info 0) ≠
      (.next t : Host.Outcome State Fault Refusal) := by
    rintro code info he
    cases he
    exact Bool.noConfusion (hs.symm.trans ht)
  cases hi : isRaster i with
  | false =>
    rcases exec_not_raster i s hi with ⟨_, _, he⟩ | ⟨_, -, he⟩ | ⟨_, -, he⟩ | ⟨_, -, -, he⟩ <;>
      (rw [he] at h; cases h; simp [hs] at ht)
  | true =>
    cases i with
    | nop _ => cases hi
    | pfReload _ => cases hi
    | pfAdjust _ => cases hi
    | stripClear _ => simp [Instr.op]
    | stripBg _ => simp [Instr.op]
    | stripSprites arg =>
      obtain ⟨code, he⟩ := finish_check_stripValid hs (operandOk s.cfg .strip arg) (stripSpritesBody arg.toNat s)
      exact absurd (he.symm.trans h) faulted
    | stripEmit arg =>
      obtain ⟨code, he⟩ := finish_check_stripValid hs (operandOk s.cfg .strip arg) (stripEmitBody arg.toNat s)
      exact absurd (he.symm.trans h) faulted
    | renderStrip _ => simp [Instr.op]
    | renderFrame _ => simp [Instr.op]

/-- Settles O13: a step that is no command keeps both bits, a command sets them at most, and only those listed do. -/
theorem validBitsSetAndCleared : Obligations.ValidBitsSetAndCleared := by
  intro s t h hr
  rcases (step_cases h).2.keeps_or_command hr with ⟨-, -, hp, hv⟩ | ⟨q, i, hn, hq, hop, ht⟩
  · simp +contextual [hp, hv]
  · obtain ⟨hp, hv⟩ := exec_keeps_valid ht
    exact ⟨hp, hv, fun h0 h1 => ⟨hn, q, hq, hop ▸ exec_sets_pfValid ht h0 h1⟩,
      fun h0 h1 => ⟨hn, q, hq, hop ▸ exec_sets_stripValid ht h0 h1⟩⟩

/-! ### PAGES (rules R57, R291) -/

/-- A command hands over pages at the end of PAGES alone (rule R291). -/
theorem exec_appends_pages {i : Instr} {s t : State} (h : exec i s = .next t) : ∃ ps, t.pages = s.pages ++ ps := by
  have same : ∃ ps, s.pages = s.pages ++ ps := ⟨[], (List.append_nil _).symm⟩
  have hP : CommandClosed i s fun u => ∃ ps, u.pages = s.pages ++ ps :=
    { fill := fun _ _ hu => hu
      draw := fun _ _ hu => by simpa using hu
      emit := fun u k _ _ ⟨ps, hu⟩ =>
        ⟨ps ++ [{ index := k, bytes := u.stripBytes }], by simp [hu]⟩
      reload := fun _ => by rw [State.loadRows_eq]; exact same
      adjust := fun _ _ => by rw [State.loadRows_eq]; exact same }
  obtain ⟨u, hu, hend⟩ := exec_ends hP same h
  cases hend with
  | completed => exact hu
  | faulted _ _ _ => exact hu
  | waits _ _ _ => exact hu

/-- The host takes no page off PAGES and adds none. -/
theorem HostEffect.keeps_pages {s t : State} (he : HostEffect s t) : t.pages = s.pages := by
  cases he with
  | write a v rest t _ _ he => cases he <;> rfl
  | _ => rfl

/-- Settles O15: only a command changes PAGES, and it appends. -/
theorem pagesOnlyAppended : Obligations.PagesOnlyAppended := by
  intro s t h hr
  have kept : t.pages = s.pages → (∃ ps, t.pages = s.pages ++ ps) ∧ (s.busy = false → t.pages = s.pages) :=
    fun hp => ⟨⟨[], by simp [hp]⟩, fun _ => hp⟩
  cases (step_cases h).2 with
  | idle _ _ => exact kept rfl
  | command q i t _ hq _ ht =>
    exact ⟨exec_appends_pages (s := s.setTurns s.turns.tail) ht, fun hb => by simp [State.busy, hq] at hb⟩
  | illegal _ _ _ _ => exact kept rfl
  | host t _ ht => exact kept ht.keeps_pages
  | sink _ _ => exact kept rfl
  | reset hn => exact absurd hn hr

/-! ### How an accepted command ends -/

/-- A sink that takes every page stalls no command (rule R291). -/
theorem CommandClosed.sinkRoom_none (i : Instr) {s : State} (hr : s.sinkRoom = none) :
    CommandClosed i s fun u => u.sinkRoom = none where
  fill := fun _ _ hu => hu
  draw := fun _ _ hu => by simpa using hu
  emit := fun _ _ _ _ hu => by simp [hu]
  reload := fun _ => by simpa using hr
  adjust := fun _ _ => by simpa using hr

theorem CommandClosed.and {i : Instr} {s : State} {P Q : State → Prop} (hP : CommandClosed i s P)
    (hQ : CommandClosed i s Q) : CommandClosed i s fun u => P u ∧ Q u where
  fill := fun u f hu => ⟨hP.fill u f hu.1, hQ.fill u f hu.2⟩
  draw := fun u k hu => ⟨hP.draw u k hu.1, hQ.draw u k hu.2⟩
  emit := fun u k hk h0 hu => ⟨hP.emit u k hk h0 hu.1, hQ.emit u k hk h0 hu.2⟩
  reload := fun hop => ⟨hP.reload hop, hQ.reload hop⟩
  adjust := fun hop hv => ⟨hP.adjust hop hv, hQ.adjust hop hv⟩

/-- With a sink that takes every page, a command accepted with DONE = 0 and FAULT = 0 that answers a next state is over,
with one of the two set (rule R256). -/
theorem exec_ends_one_way {i : Instr} {s t : State} (h : exec i s = .next t) (hr : s.sinkRoom = none)
    (hd : s.status.done = false) (hf : s.status.fault = false) :
    t.busy = false ∧ t.status.fault = !t.status.done := by
  obtain ⟨u, ⟨hu, hru⟩, hend⟩ :=
    exec_ends ((CommandClosed.bodyFrame i s).and (.sinkRoom_none i hr)) ⟨.refl s, hr⟩ h
  cases hend with
  | completed => exact ⟨rfl, hu.fault.trans hf⟩
  | faulted _ _ _ => exact ⟨rfl, by simp [hu.done.trans hd]⟩
  | waits _ _ h0 => cases hru.symm.trans h0

/-- The engine's turn with an illegal word latched is the fault ILLEGAL_CMD (rule R273). -/
theorem engineTurn_illegal {s : State} {q : Running} {e : DecodeError} (hq : s.sequencer = some q)
    (hd : decode q.word = .error e) :
    engineTurn s = .next (s.raiseFault (wordOp q.word) .illegalCmd q.word 0) := by
  simp [engineTurn, hq, hd, execIllegal]

/-- Settles O18: the latched word faults ILLEGAL_CMD, or its command ends one way, or it stops with UNWRITTEN_OBJ. -/
theorem commandEndsOneWay : Obligations.CommandEndsOneWay := by
  intro s hwf hinv hn hb hr
  obtain ⟨hd, hf⟩ := hinv.busyClear hb
  obtain ⟨q, hq⟩ := Option.isSome_iff_exists.1 hb
  rw [step_eq_takeTurn hwf hn, takeTurn]
  cases hw : decode q.word with
  | error e => exact .inl ⟨_, engineTurn_illegal hq hw, rfl, by simp [hd]⟩
  | ok i =>
    rw [engineTurn_command (s := s.setTurns s.turns.tail) hq hw]
    cases he : exec i (s.setTurns s.turns.tail) with
    | next t => exact .inl ⟨t, rfl, exec_ends_one_way he hr hd hf⟩
    | fault f => obtain ⟨k⟩ := f; exact .inr ⟨k, rfl⟩
    | refused r => exact absurd he (exec_ne_refused i _ r)

end Sys2Proof.Machine

namespace Sys2Proof.Machine
open Sys2Proof

/-! ### The host's view of the registers (rules R30 to R46) -/

/-- The place of a register in the register block (rule R30). -/
def Reg.index : Reg → Nat
  | .ctrl => 0x0
  | .status => 0x1
  | .cmd => 0x2
  | .scrollX => 0x3
  | .scrollY => 0x4
  | .objCount => 0x5
  | .faultCode => 0x6
  | .faultInfo => 0x7
  | .faultLoc => 0x8
  | .pfOrigin => 0x9
  | .geometry => 0xA
  | .objCapacity => 0xB
  | .mapRows => 0xC
  | .atlasTiles => 0xD
  | .atlasSprites => 0xE
  | .reserved => 0xF

/-- The register block holds each register at its own address (rule R30). -/
theorem index_regAt {a : Nat} (h : a < 0x10) : (regAt a).index = a := by
  revert a
  decide

/-- An address that selects a register is that register's own (rules R30, R81). -/
theorem eq_of_target_reg {c : Config} {a : Nat} {r : Reg} (h : target c a = .reg r) : a = r.index := by
  have ha : a < 0x10 := by
    by_contra hge
    unfold target at h
    rw [if_neg hge] at h
    split at h
    · split at h <;> cases h
    · split at h
      · cases h
      · split at h <;> cases h
  rw [target_reg c ha, Target.reg.injEq] at h
  rw [← h, index_regAt ha]

theorem State.hostRead_reg (s : State) {a : HostAddr} (h : a.toNat < 0x10) :
    s.hostRead a = s.regRead (regAt a.toNat) := by
  rw [State.hostRead, target_reg _ h]

/-- Writes to the registers from FAULT_CODE on do nothing (rules R37 to R46). -/
theorem State.hostWrite_readOnly (s : State) {a : HostAddr} (v : Word) (h6 : 0x006 ≤ a.toNat) (hF : a.toNat ≤ 0x00F) :
    s.hostWrite a v = s := by
  rw [State.hostWrite, target_reg _ (by omega)]
  generalize a.toNat = n at h6 hF
  interval_cases n <;> rfl

/-! ### Sizes of a well-formed configuration (rules R8, R9) -/

theorem Config.bounds_of_wf {c : Config} (h : c.wf = true) :
    c.vc ≤ 32 ∧ c.vr ≤ 32 ∧ c.mapHeight ≤ 65535 ∧ c.tileCount ≤ 256 ∧ c.spr8Count ≤ 128 ∧ c.spr16Count ≤ 128 ∧
      c.objCap ≤ 255 := by
  simp only [Config.wf, Config.geometryOk, Config.mapHeightOk, Config.tileCountOk, Config.spriteCountsOk,
    Config.objCapOk, Bool.and_eq_true, decide_eq_true_eq] at h
  omega

theorem Config.objCap_le_of_wf {c : Config} (h : c.wf = true) : c.objCap ≤ 255 := by
  have := Config.bounds_of_wf h
  omega

/-- The playfield fits its window (rule R81). -/
theorem Config.cells_le_of_wf {c : Config} (h : c.wf = true) : c.rows * c.cols ≤ 0x800 := by
  obtain ⟨hvc, hvr, -⟩ := Config.bounds_of_wf h
  calc c.rows * c.cols ≤ 34 * 34 := Nat.mul_le_mul (by simp only [Config.rows]; omega) (by simp only [Config.cols]; omega)
    _ ≤ 0x800 := by decide

/-! ### The hardwired registers (rules R41 to R45) -/

/-- Two counts in one word, the first in the high byte (rule R14). -/
theorem catBytes_ofNat_toNat {m n : Nat} (hm : m < 256) (hn : n < 256) :
    (catBytes (BitVec.ofNat 8 m) (BitVec.ofNat 8 n)).toNat = 256 * m + n := by
  rw [catBytes, BitVec.toNat_append, BitVec.toNat_ofNat, BitVec.toNat_ofNat, Nat.mod_eq_of_lt hm, Nat.mod_eq_of_lt hn,
    ← Nat.shiftLeft_add_eq_or_of_lt hn, Nat.shiftLeft_eq, Nat.mul_comm]

theorem State.hardwired_reads (s : State) (h : s.cfg.wf = true) :
    (s.hostRead 0x00A).toNat = 256 * s.cfg.vr + s.cfg.vc ∧ (s.hostRead 0x00B).toNat = s.cfg.objCap ∧
      (s.hostRead 0x00C).toNat = s.cfg.mapHeight ∧ (s.hostRead 0x00D).toNat = s.cfg.tileCount ∧
      (s.hostRead 0x00E).toNat = 256 * s.cfg.spr16Count + s.cfg.spr8Count := by
  obtain ⟨hvc, hvr, hmap, htile, h8, h16, hobj⟩ := Config.bounds_of_wf h
  have ofNat_toNat : ∀ {n : Nat}, n ≤ 65535 → (BitVec.ofNat 16 n).toNat = n := fun hn => by
    rw [BitVec.toNat_ofNat, Nat.mod_eq_of_lt (by omega)]
  exact ⟨catBytes_ofNat_toNat (by omega) (by omega), ofNat_toNat (by omega), ofNat_toNat hmap, ofNat_toNat (by omega),
    catBytes_ofNat_toNat (by omega) (by omega)⟩

/-- Settles O23: the five reads, and that the registers from FAULT_CODE on take no write. -/
theorem hardwiredRegisters : Obligations.HardwiredRegisters := by
  intro s hwf
  obtain ⟨hgeo, hcap, hrows, htiles, hsprites⟩ := s.hardwired_reads hwf
  exact ⟨hgeo, hcap, hrows, htiles, hsprites, fun a v hA hE => s.hostWrite_readOnly v (by omega) (by omega)⟩

/-! ### STATUS and the data registers -/

theorem State.hostRead_status (s : State) : s.hostRead 0x001 = s.statusWord := s.hostRead_reg (by decide)

theorem State.statusWord_high (s : State) {n : Nat} (h : 7 ≤ n) : s.statusWord.getLsbD n = false := by
  simp [State.statusWord_getLsbD, show n ≠ 0 ∧ n ≠ 1 ∧ n ≠ 2 ∧ n ≠ 3 ∧ n ≠ 4 ∧ n ≠ 5 ∧ n ≠ 6 by omega]

theorem State.ctrlWord_high (s : State) {n : Nat} (h : 4 ≤ n) : s.ctrlWord.getLsbD n = false := by
  simp [State.ctrlWord_getLsbD, show n ≠ 0 ∧ n ≠ 1 ∧ n ≠ 2 ∧ n ≠ 3 by omega]

/-- Settles O24: STATUS bit by bit. -/
theorem statusAndIrqRead : Obligations.StatusAndIrqRead := by
  intro s
  rw [s.hostRead_status]
  refine ⟨rfl, ?_, ?_, ?_, ?_, ?_, ?_, ?_, fun n h => s.statusWord_high h⟩ <;>
    (rw [State.statusWord_getLsbD]; simp)

/-- A zero-extended register reads 0 above its own bits (rule R46). -/
theorem getLsbD_setWidth_high {w : Nat} (x : BitVec w) {n : Nat} (h : w ≤ n) : (x.setWidth 16).getLsbD n = false := by
  simp [BitVec.getLsbD_of_ge x n h]

/-- Settles O29: each register at its own address, read-only writes, and the reserved bits of CTRL, STATUS, OBJ_COUNT and
PF_ORIGIN. -/
theorem registerReads : Obligations.RegisterReads := fun s _ v =>
  ⟨⟨rfl, rfl, rfl, rfl, rfl, rfl, rfl, rfl, rfl⟩, fun h6 hF => s.hostWrite_readOnly v h6 hF,
    fun _ h => s.ctrlWord_high h, fun _ h => s.statusWord_high h,
    fun _ h => getLsbD_setWidth_high s.objCount h, fun _ h => getLsbD_setWidth_high s.pfOrigin h⟩

/-! ### The three windows (rules R51, R53, R55) -/

/-- From 0x800 on the host sees the playfield, the strip buffer or nothing (rules R81, R92). -/
theorem target_of_ge {c : Config} (hc : c.objCap ≤ 255) {a : Nat} (h : 0x800 ≤ a) :
    (∃ i, target c a = .pfCell i) ∨ (∃ x, target c a = .stripCol x) ∨ target c a = .unmapped := by
  unfold target
  rw [if_neg (by omega), if_neg (by omega)]
  split
  · exact .inl ⟨_, rfl⟩
  · split
    · exact .inr (.inl ⟨_, rfl⟩)
    · exact .inr (.inr rfl)

/-- The host writes neither window from 0x800 on (rules R51, R55, R92). -/
theorem State.hostWrite_of_ge (s : State) {a : HostAddr} (v : Word) (hwf : s.cfg.wf = true) (h : 0x800 ≤ a.toNat) :
    s.hostWrite a v = s := by
  rcases target_of_ge (Config.objCap_le_of_wf hwf) h with ⟨i, ht⟩ | ⟨x, ht⟩ | ht <;> rw [State.hostWrite, ht]

theorem State.hostRead_unmapped (s : State) {a : HostAddr} (h : target s.cfg a.toNat = .unmapped) :
    s.hostRead a = 0x0000 := by
  rw [State.hostRead, h]

/-- A gated read is 0 while BUSY or before the valid bit (rules R51, R55). -/
theorem gate_eq (busy valid : Bool) (v : Word) :
    (if busy || !valid then 0 else v) = if busy = true ∨ valid = false then 0x0000 else v := by
  cases busy <;> cases valid <;> rfl

/-- The address of a cell lies in the playfield's range (rule R50). -/
theorem cellAddr_lt {rows cols r c : Nat} (hr : r < rows) (hc : c < cols) : r * cols + c < rows * cols :=
  calc r * cols + c < (r + 1) * cols := by rw [Nat.succ_mul]; omega
    _ ≤ rows * cols := Nat.mul_le_mul_right _ hr

/-- Settles O25: the window's words are the cells, and then nothing. -/
theorem playfieldWindow : Obligations.PlayfieldWindow := by
  intro s a v hwf hlo hhi
  refine ⟨s.hostWrite_of_ge v hwf hlo, fun r c hr hc ha => ?_, fun h => ?_⟩
  · rw [State.hostRead, target_pfCell _ ha (Config.objCap_le_of_wf hwf) (cellAddr_lt hr hc)]
    exact gate_eq _ _ _
  · have := Config.objCap_le_of_wf hwf
    exact s.hostRead_unmapped (target_unmapped _ (by omega) (by omega) (by omega) (by omega))

/-- Settles O26: the window's words are the strip bytes, and then nothing. -/
theorem stripWindow : Obligations.StripWindow := by
  intro s a v hwf hlo
  have hcap := Config.objCap_le_of_wf hwf
  have hcells := Config.cells_le_of_wf hwf
  refine ⟨s.hostWrite_of_ge v hwf (by omega), fun x hx ha => ?_, fun h => ?_⟩
  · rw [State.hostRead, target_stripCol _ ha hcap hcells hx]
    exact gate_eq _ _ _
  · exact s.hostRead_unmapped (target_unmapped _ (by omega) (by omega) (by omega) (by omega))

/-- The reserved word of an entry and the words past the list hold nothing (rules R53, R92). -/
theorem target_no_field (c : Config) {a k f : Nat} (hf : f < 4) (ha : a = 0x400 + 4 * k + f) (hhi : a < 0x800)
    (h : c.objCap ≤ k ∨ f = 3) : target c a = .objReserved ∨ target c a = .unmapped := by
  by_cases hk : k < c.objCap
  · exact .inl (target_objReserved c (i := 4 * k + f) (by omega) (by omega) (by omega))
  · exact .inr (target_unmapped c (by omega) (by omega) (by omega) (by omega))

/-- A written field reads back zero-extended while no command runs (rule R53). -/
theorem State.hostRead_objField {s : State} {a : HostAddr} {i : Nat} {b : Byte}
    (ht : target s.cfg a.toNat = .objField i) (hb : s.busy = false) (hi : s.obj.read i = some b) :
    s.hostRead a = b.setWidth 16 := by
  simp [State.hostRead, ht, hb, State.objByte, hi, zext16]

/-- Settles O27: a field word is the field's target; BUSY decides between the access and the drop. -/
theorem objectWindow : Obligations.ObjectWindow := by
  intro s a v k f hwf hf ha hhi
  have field : k < s.cfg.objCap → f < 3 → target s.cfg a.toNat = .objField (4 * k + f) := fun hk hf3 =>
    target_objField s.cfg (by omega) (by omega) (by omega)
  refine ⟨fun hk hf3 hb => ?_, fun hk hf3 hb => ?_, fun h => ?_⟩
  · have ht := field hk hf3
    have hw : s.hostWrite a v = s.setObj (s.obj.write (4 * k + f) (v.extractLsb' 0 8)) := by
      simp [State.hostWrite, ht, hb]
    refine ⟨hw, fun b hob => State.hostRead_objField ht hb hob, ?_⟩
    rw [hw]
    exact State.hostRead_objField ht hb (Memory.read_write_self ..)
  · have ht := field hk hf3
    constructor
    · simp [State.hostWrite, ht, hb, State.dropWrite, State.setStatus]
    · simp [State.hostRead, ht, hb]
  · rcases target_no_field s.cfg hf ha hhi h with ht | ht <;> simp [State.hostWrite, State.hostRead, ht]

/-! ### Reset -/

theorem State.powerOn_ctrlWord (c : Config) : (State.powerOn c).ctrlWord = 0x0003 := by
  simp [State.ctrlWord, State.powerOn, flagBit]

theorem State.powerOn_statusWord (c : Config) : (State.powerOn c).statusWord = 0x0000 := by
  simp [State.statusWord, State.powerOn, State.busy, State.irq, flagBit]

/-- Settles O20: the turn is the reset event, whose state is that of power-on but for what the agents outside hold. -/
theorem resetEventValues : Obligations.ResetEventValues := by
  intro s hwf hn
  rw [step_eq_takeTurn hwf hn]
  exact ⟨_, rfl, rfl, State.powerOn_ctrlWord s.cfg, State.powerOn_statusWord s.cfg, rfl, rfl, rfl, rfl, rfl,
    rfl, rfl, rfl, rfl, rfl, rfl, fun _ => ⟨rfl, rfl, rfl⟩⟩

/-- Neither window shows anything right after reset (rules R51, R55, R59). -/
theorem State.powerOn_hostRead_of_ge {c : Config} (hwf : c.wf = true) {a : HostAddr} (h : 0x800 ≤ a.toNat) :
    (State.powerOn c).hostRead a = 0x0000 := by
  have hcap : (State.powerOn c).cfg.objCap ≤ 255 := Config.objCap_le_of_wf hwf
  rcases target_of_ge hcap h with ⟨i, ht⟩ | ⟨x, ht⟩ | ht <;> rw [State.hostRead, ht] <;> rfl

/-- Settles O21: the data registers at their values of rule R59, the hardwired ones, and the two windows. -/
theorem hostReadsAfterReset : Obligations.HostReadsAfterReset := by
  intro c hwf
  obtain ⟨hgeo, hcap, hrows, htiles, hsprites⟩ := (State.powerOn c).hardwired_reads hwf
  exact ⟨State.powerOn_ctrlWord c, State.powerOn_statusWord c, rfl, rfl, rfl, rfl, rfl, rfl, rfl, rfl, hgeo, hcap,
    hrows, htiles, hsprites, rfl, fun a h => State.powerOn_hostRead_of_ge hwf h⟩

end Sys2Proof.Machine

namespace Sys2Proof.Machine
open Sys2Proof

/-! ### What moves the flags and the fault record (rules R32, R281, R294) -/

/-- The fault record and the ghost mark are the same. -/
structure State.RecordKept (s t : State) : Prop where
  faulted : t.faulted = s.faulted
  faultCode : t.faultCode = s.faultCode
  faultInfo : t.faultInfo = s.faultInfo
  faultLoc : t.faultLoc = s.faultLoc

theorem WriteEffect.recordKept {s t : State} (he : WriteEffect s t) : s.RecordKept t := by
  cases he <;> exact ⟨rfl, rfl, rfl, rfl⟩

/-- A write to `a` is dropped: CMD while FAULT is 1, or a writable location while BUSY is 1 (rules R252, R253, R294). -/
def State.DropsWrite (s : State) (a : HostAddr) : Prop :=
  a = 0x002 ∧ s.status.fault = true ∨
    s.busy = true ∧ (a = 0x000 ∨ a = 0x002 ∨ a = 0x003 ∨ a = 0x004 ∨ a = 0x005 ∨
      (0x400 ≤ a.toNat ∧ a.toNat < 0x400 + 4 * s.cfg.objCap ∧ a.toNat % 4 ≠ 3))

/-- What a host write of `v` to `a` does to the flags. -/
inductive WriteFlags (s : State) (a : HostAddr) (v : Word) (t : State) : Prop where
  | kept (hst : t.status = s.status)
  | cleared (ha : a = 0x001) (hst : t.status = s.status.clear v)
  | dropped (hd : s.DropsWrite a) (hst : t.status = { s.status with wrIgnored := true })
  | accepted (hb : s.busy = false) (hb' : t.busy = true) (hst : t.status = { s.status with done := false })

/-- The host address of a register is its index (rule R30). -/
theorem hostAddr_of_target_reg {c : Config} {a : HostAddr} {r : Reg} (h : target c a.toNat = .reg r) :
    a = BitVec.ofNat 13 r.index := by
  rw [← eq_of_target_reg h, BitVec.ofNat_toNat, BitVec.setWidth_eq]

/-- While BUSY is 1, writes to the five writable registers other than STATUS are dropped (rule R252). -/
theorem State.dropsWrite_of_reg {s : State} {a : HostAddr} {r : Reg} (hb : s.busy = true)
    (h : target s.cfg a.toNat = .reg r) (hr : r.index ∈ [0, 2, 3, 4, 5]) : s.DropsWrite a := by
  refine .inr ⟨hb, ?_⟩
  rw [hostAddr_of_target_reg h]
  cases r <;> simp [Reg.index] at hr ⊢

theorem State.hostWrite_flags (s : State) (a : HostAddr) (v : Word) : WriteFlags s a v (s.hostWrite a v) := by
  have dropOr : ∀ t, (s.busy = true → s.DropsWrite a) → (s.busy = false → WriteFlags s a v t) →
      WriteFlags s a v (if s.busy then s.dropWrite else t) := by
    intro t hd ht
    cases hb : s.busy
    · exact ht hb
    · exact .dropped (hd hb) rfl
  unfold State.hostWrite
  split
  case h_1 h => exact .cleared (hostAddr_of_target_reg h) rfl
  case h_2 h =>
    have ha : a = 0x002 := hostAddr_of_target_reg h
    refine dropOr _ (fun hb => State.dropsWrite_of_reg hb h (by decide)) fun hb => ?_
    unfold State.cmdWrite
    cases hf : s.status.fault
    · exact .accepted hb rfl rfl
    · exact .dropped (.inl ⟨ha, hf⟩) rfl
  case h_3 h => exact dropOr _ (fun hb => State.dropsWrite_of_reg hb h (by decide)) fun _ => .kept rfl
  case h_4 h => exact dropOr _ (fun hb => State.dropsWrite_of_reg hb h (by decide)) fun _ => .kept rfl
  case h_5 h => exact dropOr _ (fun hb => State.dropsWrite_of_reg hb h (by decide)) fun _ => .kept rfl
  case h_6 h => exact dropOr _ (fun hb => State.dropsWrite_of_reg hb h (by decide)) fun _ => .kept rfl
  case h_7 i h =>
    obtain ⟨hi, hf, ha⟩ := eq_of_target_objField h
    exact dropOr _ (fun hb => .inr ⟨hb, by omega⟩) fun _ => .kept rfl
  all_goals exact .kept rfl

/-- What a step does to the flags and the fault record, with its cause. -/
inductive FlagEffect (s t : State) : Prop where
  | kept (hr : s.RecordKept t) (hd : t.status.done = s.status.done) (hf : t.status.fault = s.status.fault)
      (hw : t.status.wrIgnored = s.status.wrIgnored)
  | completed (hn : s.nextTurn = .engine) (hb : s.busy = true) (hb' : t.busy = false) (hr : s.RecordKept t)
      (hd : t.status.done = true) (hf : t.status.fault = s.status.fault)
      (hw : t.status.wrIgnored = s.status.wrIgnored)
  | faulted (q : Running) (hn : s.nextTurn = .engine) (hq : s.sequencer = some q) (hb' : t.busy = false)
      (hm : t.faulted = true) (hop : t.faultCode.extractLsb' 8 8 = wordOp q.word)
      (hd : t.status.done = s.status.done) (hf : t.status.fault = true)
      (hw : t.status.wrIgnored = s.status.wrIgnored)
  | written (a : HostAddr) (v : Word) (rest : List HostOp) (hn : s.nextTurn = .host)
      (hs : s.script = .write a v :: rest) (hr : s.RecordKept t) (hw : WriteFlags s a v t)

/-- The opcode of a fault code (rule R37). -/
theorem faultCodeWord_op (op : Byte) (code : FaultCode) : (faultCodeWord op code).extractLsb' 8 8 = op :=
  (Laws.EncodingFields.fields_append op (0#4 ++ code.number)).1

/-- Every step but reset has one of these effects on the flags. -/
theorem StepEffect.flagEffect {s t : State} (he : StepEffect s t) (hr : s.nextTurn ≠ .reset) : FlagEffect s t := by
  cases he with
  | idle _ _ => exact .kept ⟨rfl, rfl, rfl, rfl⟩ rfl rfl rfl
  | command q i t hn hq hd ht =>
    obtain ⟨u, hu, hend⟩ := exec_ends_bodyFrame ht
    cases hend with
    | completed =>
      exact .completed hn (by simp [State.busy, hq]) rfl ⟨hu.faulted, hu.faultCode, hu.faultInfo, hu.faultLoc⟩ rfl
        hu.fault hu.wrIgnored
    | faulted code info loc =>
      have hop : wordOp (encode i) = wordOp q.word := (wordOp_encode i).trans (decode_fields hd).1
      exact .faulted q hn hq rfl rfl ((faultCodeWord_op _ code).trans hop) hu.done rfl hu.wrIgnored
    | waits _ _ _ => exact .kept ⟨rfl, rfl, rfl, rfl⟩ rfl rfl rfl
  | illegal q hn hq _ => exact .faulted q hn hq rfl rfl (faultCodeWord_op _ .illegalCmd) rfl rfl rfl
  | host t hn ht =>
    cases ht with
    | write a v rest t hs ht he =>
      obtain ⟨hm, hc, hi, hl⟩ := he.recordKept
      subst ht
      refine .written a v rest hn hs ⟨hm, hc, hi, hl⟩ ?_
      cases State.hostWrite_flags ((s.setTurns s.turns.tail).setScript rest) a v with
      | kept hst => exact .kept hst
      | cleared ha hst => exact .cleared ha hst
      | dropped hd hst => exact .dropped hd hst
      | accepted hb hb' hst => exact .accepted hb hb' hst
    | _ => exact .kept ⟨rfl, rfl, rfl, rfl⟩ rfl rfl rfl
  | sink _ _ => exact .kept ⟨rfl, rfl, rfl, rfl⟩ rfl rfl rfl
  | reset hn => exact absurd hn hr

/-- Settles O14: each flag's change is read off the one effect that can make it. -/
theorem flagsAndFaultRecordCauses : Obligations.FlagsAndFaultRecordCauses := by
  intro s t h hr fell
  cases (step_cases h).2.flagEffect hr with
  | kept hr hd hf hw =>
    refine ⟨fun h => hr.faulted ▸ h, .inl ⟨hr.faultCode, hr.faultInfo, hr.faultLoc⟩, ?_⟩
    simp +contextual [hd, hf, hw]
  | completed hn hb hb' hr hd hf hw =>
    refine ⟨fun h => hr.faulted ▸ h, .inl ⟨hr.faultCode, hr.faultInfo, hr.faultLoc⟩, ?_⟩
    simp +contextual [hd, hf, hw, hn, hb, hb', hr.faultCode, hr.faultInfo, hr.faultLoc]
  | faulted q hn hq hb' hm hop hd hf hw =>
    have hb : s.busy = true := by simp [State.busy, hq]
    refine ⟨fun _ => hm, .inr ⟨hn, hb, hb', hf, hm⟩, fun _ _ => ⟨hn, hb', hd, hm, q, hq, hop⟩, ?_⟩
    simp +contextual [hd, hf, hw]
  | written a v rest hn hs hr hw =>
    refine ⟨fun h => hr.faulted ▸ h, .inl ⟨hr.faultCode, hr.faultInfo, hr.faultLoc⟩, ?_⟩
    cases hw with
    | kept hst => simp +contextual [hst]
    | cleared ha hst =>
      subst ha
      have fallen : ∀ {b : Bool} {bit : Nat}, b = true → (b && !v.getLsbD bit) = false → fell bit := fun hb h =>
        ⟨hn, v, rest, hs, by simpa [hb] using h⟩
      rw [hst]
      simp +contextual [Status.clear, fallen]
    | dropped hdrop hst =>
      refine ⟨?_, ?_, fun _ _ => ⟨hn, a, v, rest, hs, hdrop⟩, ?_⟩ <;> simp +contextual [hst]
    | accepted hb hb' hst => simp +contextual [hst, hn, hb, hb']

end Sys2Proof.Machine

namespace Sys2Proof.Machine
open Sys2Proof

/-! ### One strip of a render command (rules R220, R221) -/

/-- The strips from `j` on, strip `j` first. -/
theorem range_drop_cons {j n : Nat} (hj : j < n) : (List.range n).drop j = j :: (List.range n).drop (j + 1) := by
  rw [List.drop_eq_getElem_cons (by simpa using hj), List.getElem_range]

/-- The strips from `m` on, cut at strip `j`. -/
theorem range_drop_split {m j n : Nat} (hm : m ≤ j) (hj : j < n) :
    (List.range n).drop m = (List.range j).drop m ++ (List.range n).drop j := by
  have hcut : List.range n = List.range j ++ (List.range n).drop j := by
    conv_lhs => rw [← List.take_append_drop j (List.range n), List.take_range, Nat.min_eq_left hj.le]
  conv_lhs => rw [hcut]
  exact List.drop_append_of_le_length (by simpa using hm)

/-- `s` with the strip buffer cleared and then filled with the background of strip `k`. -/
def State.withBackground (s : State) (k : Nat) : State := (s.fillStrip fun _ => 0x00#8).fillStrip (s.bgByte k)

/-- `s` with strip `k` in the strip buffer: its background and the sprites over it. -/
def State.withStrip (s : State) (k : Nat) : State := (s.withBackground k).drawAll k

theorem State.SameScene.withBackground (s : State) (k : Nat) : s.SameScene (s.withBackground k) :=
  (State.SameScene.fillStrip s _).trans (State.SameScene.fillStrip _ _)

/-- Up to its check pass, RENDER_STRIP draws the background where every sampled tile index is in range. -/
theorem renderStripBody_background {s : State} {k : Nat} (h : s.firstBadCell k = none) :
    renderStripBody k s = (stripSpritesBody k (s.withBackground k)).andThen (stripEmitBody k) := by
  have hc := State.SameScene.fillStrip s fun _ => 0x00#8
  have hbg : stripBgBody k (s.fillStrip fun _ => 0x00#8) = .done (s.withBackground k) := by
    rw [stripBgBody, hc.firstBadCell, h, hc.bgByte]
    rfl
  rw [renderStripBody, stripClearBody, Body.done_andThen, hbg, Body.done_andThen]

/-- A strip that can be drawn comes to its emit line. -/
theorem renderStripBody_ready {s : State} {k : Nat} (hb : s.firstBadCell k = none) (hp : s.spriteCheck k = .pass) :
    renderStripBody k s = stripEmitBody k (s.withStrip k) := by
  rw [renderStripBody_background hb, stripSpritesBody, (State.SameScene.withBackground s k).spriteCheck, hp,
    Body.done_andThen]
  rfl

/-- Drawing a strip writes the strip buffer and STRIP_VALID alone. -/
theorem State.withStrip_eq (s : State) (k : Nat) :
    s.withStrip k = { s with strip := (s.withStrip k).strip, status := { s.status with stripValid := true } } :=
  (State.drawAll_eq k (s.withBackground k)).trans rfl

/-- Drawing a strip leaves what lies past its last byte. -/
theorem State.withStrip_read_beyond (s : State) (k : Nat) {x : Nat} (hx : s.cfg.width ≤ x) :
    (s.withStrip k).strip.read x = s.strip.read x := by
  refine State.drawAll_induct k (s.withBackground k) (fun m => m.read x = s.strip.read x) ?_ fun m y v hy hm => ?_
  · have hlt : ¬ x < s.cfg.width := by omega
    simp [State.withBackground, State.fillStrip_read, hlt]
  · have hlt : y < s.cfg.width := hy
    rw [Memory.read_write_ne _ _ (by omega), hm]

/-! ### The picture of a strip depends on the scene alone -/

/-- What drawing an entry leaves in a byte depends on the scene and on that byte. -/
theorem State.SameScene.drawEntry_stripByte {s u : State} (h : s.SameScene u) {x : Nat}
    (hx : u.stripByte x = s.stripByte x) (k j : Nat) :
    (u.drawEntry k j).stripByte x = (s.drawEntry k j).stripByte x := by
  simp only [State.drawEntry, h.objEntry, h.cfg]
  split
  · split
    · rw [State.drawObj_stripByte, State.drawObj_stripByte, h.cfg, hx]
    · exact hx
  · exact hx

theorem State.SameScene.drawEntry {s u : State} (h : s.SameScene u) (k j : Nat) :
    (s.drawEntry k j).SameScene (u.drawEntry k j) := by
  constructor <;> simp [h.cfg, h.ctrl, h.scrollX, h.scrollY, h.objCount, h.obj, h.pf, h.resets]

theorem State.SameScene.drawEntries_stripByte {s u : State} (h : s.SameScene u) {x : Nat}
    (hx : u.stripByte x = s.stripByte x) (k : Nat) (js : List Nat) :
    (js.foldl (State.drawEntry k) u).stripByte x = (js.foldl (State.drawEntry k) s).stripByte x := by
  induction js generalizing s u with
  | nil => exact hx
  | cons j js ih => exact ih (h.drawEntry k j) (h.drawEntry_stripByte hx k j)

/-- Drawing the sprites over the background of strip `k` gives its picture, whatever the strip buffer held before. -/
theorem State.SameScene.drawAll_picture {s v : State} (h : s.SameScene v) {k : Nat}
    (hv : ∀ x, x < s.cfg.width → v.stripByte x = s.bgByte k x) : (v.drawAll k).stripBytes = s.picture k := by
  have hf : (s.fillStrip (s.bgByte k)).SameScene v := { h with }
  simp only [State.picture, State.stripBytes, State.drawAll_cfg, State.fillStrip_cfg, h.cfg]
  refine List.map_congr_left fun x hx => ?_
  have hlt := List.mem_range.1 hx
  rw [State.drawAll, State.drawAll, h.objCount]
  exact hf.drawEntries_stripByte (by rw [hv x hlt, State.fillStrip_stripByte, if_pos hlt]) k _

theorem State.SameScene.withStrip_picture {s u : State} (h : s.SameScene u) (k : Nat) :
    (u.withStrip k).stripBytes = s.picture k :=
  (h.trans (.withBackground u k)).drawAll_picture fun x hx => by
    rw [State.withBackground, State.fillStrip_stripByte, if_pos (by rwa [State.fillStrip_cfg, h.cfg]), h.bgByte]

theorem State.SameScene.pageOf {s u : State} (h : s.SameScene u) : u.pageOf = s.pageOf := by
  funext k
  have hpic : u.picture k = s.picture k :=
    (h.trans (.fillStrip u (u.bgByte k))).drawAll_picture fun x hx => by
      rw [State.fillStrip_stripByte, if_pos (by rwa [h.cfg]), h.bgByte]
  rw [State.pageOf, State.pageOf, hpic]

/-! ### A run of strips -/

/-- `s` after the pages of the strips `ks` were handed over, with `m` in the strip buffer (rules R57, R221, R291). -/
def State.afterPages (s : State) (ks : List Nat) (m : Memory) (valid : Bool) : State :=
  { s with
    strip := m
    pages := s.pages ++ ks.map s.pageOf
    sinkRoom := s.sinkRoom.map (· - ks.length)
    status := { s.status with stripValid := valid } }

theorem State.SameScene.afterPages (s : State) (ks : List Nat) (m : Memory) (valid : Bool) :
    s.SameScene (s.afterPages ks m valid) := by constructor <;> rfl

theorem State.afterPages_nil (s : State) : s.afterPages [] s.strip s.status.stripValid = s := by
  simp [State.afterPages]

/-- One more page, of strip `k` in the buffer (rule R219). -/
theorem State.withStrip_emitPage (s : State) (ks : List Nat) (m : Memory) (valid : Bool) (k : Nat) :
    let u := (s.afterPages ks m valid).withStrip k
    u.emitPage { index := k, bytes := u.stripBytes } = s.afterPages (ks ++ [k]) u.strip true := by
  intro u
  have hbytes : u.stripBytes = s.picture k := (State.SameScene.afterPages s ks m valid).withStrip_picture k
  rw [hbytes, show u = _ from State.withStrip_eq _ k]
  simp [State.emitPage, State.afterPages, State.pageOf, Function.comp_def, Nat.sub_sub]

/-- The strips `ks` of `s` can be drawn: their check passes pass (rules R188, R216). -/
def State.Drawable (s : State) (ks : List Nat) : Prop :=
  ∀ k ∈ ks, s.firstBadCell k = none ∧ s.spriteCheck k = .pass

theorem State.drawable_of_ready {s : State} {ks : List Nat} (h : ∀ k ∈ ks, s.bgReady k ∧ s.spritesReady k) :
    s.Drawable ks := fun k hk => ⟨State.firstBadCell_none (h k hk).1, State.spriteCheck_pass (h k hk).2⟩

/-- The next strip of a run comes to its emit line. -/
theorem renderStripBody_afterPages {s : State} {js : List Nat} (hd : s.Drawable js) {k : Nat} (hk : k ∈ js)
    (ks : List Nat) (m : Memory) (valid : Bool) : renderStripBody k (s.afterPages ks m valid) =
      stripEmitBody k ((s.afterPages ks m valid).withStrip k) := by
  obtain ⟨hb, hp⟩ := hd k hk
  have hsc := State.SameScene.afterPages s ks m valid
  exact renderStripBody_ready (hsc.firstBadCell k ▸ hb) (hsc.spriteCheck k ▸ hp)

/-- A run of drawable strips that the sink takes hands over their pages in order; the buffer holds the last strip. -/
theorem renderStrips_done {s : State} {ks : List Nat} (hd : s.Drawable ks)
    (hroom : ∀ n, s.sinkRoom = some n → ks.length ≤ n) :
    ∃ m valid, renderStrips ks s = .done (s.afterPages ks m valid) ∧
      (∀ x, s.cfg.width ≤ x → m.read x = s.strip.read x) ∧
      ∀ k, ks.getLast? = some k → valid = true ∧ (s.afterPages ks m valid).stripBytes = s.picture k := by
  induction ks using List.reverseRecOn with
  | nil => exact ⟨s.strip, s.status.stripValid, by rw [State.afterPages_nil]; rfl, fun _ _ => rfl, by simp⟩
  | append_singleton ks k ih =>
    obtain ⟨m, valid, hrun, hbeyond, -⟩ := ih (fun j hj => hd j (by simp [hj])) fun n hn => by
      have := hroom n hn
      simp only [List.length_append, List.length_singleton] at this
      omega
    have hsink : ((s.afterPages ks m valid).withStrip k).sinkRoom ≠ some 0 := by
      rw [State.withStrip_eq]
      intro h0
      obtain ⟨n, hn, h0⟩ := Option.map_eq_some_iff.1 h0
      have := hroom n hn
      simp only [List.length_append, List.length_singleton] at this
      omega
    refine ⟨((s.afterPages ks m valid).withStrip k).strip, true, ?_, fun x hx => ?_, fun j hj => ?_⟩
    · rw [renderStrips_append hrun, renderStrips, renderStripBody_afterPages hd (by simp),
        stripEmitBody, if_neg hsink, Body.done_andThen, State.withStrip_emitPage]
      rfl
    · exact (State.withStrip_read_beyond (s.afterPages ks m valid) k hx).trans (hbeyond x hx)
    · obtain rfl : k = j := by simpa using hj
      rw [← State.withStrip_emitPage]
      exact ⟨rfl, (State.SameScene.afterPages s ks m valid).withStrip_picture k⟩

/-- A run of drawable strips stalls at the strip whose page the sink has no room for, its pages so far handed over. -/
theorem renderStrips_stalled {s : State} {ks ls : List Nat} {k : Nat} (hd : s.Drawable (ks ++ k :: ls))
    (hroom : s.sinkRoom = some ks.length) :
    ∃ u, renderStrips (ks ++ k :: ls) s = .stalled u k ∧ u.pages = s.pages ++ ks.map s.pageOf ∧
      u.sinkRoom = some 0 := by
  obtain ⟨m, valid, hrun, -, -⟩ := renderStrips_done (fun j hj => hd j (by simp [hj]) : s.Drawable ks)
    fun n hn => by rw [hroom] at hn; cases hn; rfl
  have hsink : ((s.afterPages ks m valid).withStrip k).sinkRoom = some 0 := by
    rw [State.withStrip_eq]
    simp [State.afterPages, hroom]
  refine ⟨(s.afterPages ks m valid).withStrip k, ?_, by rw [State.withStrip_eq]; rfl, hsink⟩
  rw [renderStrips_append hrun, renderStrips, renderStripBody_afterPages hd (by simp),
    stripEmitBody, if_pos hsink, Body.stalled_andThen]

/-- The strips that RENDER_FRAME has left are drawable where every strip from the one in progress on is ready. -/
theorem State.drawable_stripsLeft {s : State} {m : Nat} (hm : s.stripInProgress = m)
    (h : ∀ k, m ≤ k → k < s.cfg.vr → s.bgReady k ∧ s.spritesReady k) : s.Drawable s.stripsLeft :=
  State.drawable_of_ready fun k hk => by
    rw [State.stripsLeft, hm, List.mem_drop_iff_getElem] at hk
    obtain ⟨i, hi, rfl⟩ := hk
    simp only [List.getElem_range, List.length_range] at hi ⊢
    exact h _ (by omega) (by omega)

/-- Settles O58: the strips left are one run, which ends with strip VR - 1. -/
theorem renderFrameCompletes : Obligations.RenderFrameCompletes := by
  intro s m hv hm hlt hroom hready
  have hlast : ((List.range s.cfg.vr).drop m).getLast? = some (s.cfg.vr - 1) := by
    rw [List.getLast?_drop, if_neg (by simpa using hlt), List.getLast?_range, if_neg (by omega)]
  have hd := State.drawable_stripsLeft hm hready
  rw [State.stripsLeft, hm] at hd
  obtain ⟨b, valid, hrun, hbeyond, hfinal⟩ := renderStrips_done hd fun n hn => by simpa using hroom n hn
  obtain ⟨rfl, hbytes⟩ := hfinal _ hlast
  refine ⟨(s.afterPages ((List.range s.cfg.vr).drop m) b true).complete, ?_, ?_, hbytes, hbeyond⟩
  · rw [exec_renderFrame_ok hv, State.stripsLeft, hm, hrun, finish_done]
  · simp [State.afterPages, State.complete]

/-- Settles O60: the run stalls at strip m + n; the frame resumed there is O58 on the same scene. -/
theorem sinkStallLosesNoPage : Obligations.SinkStallLosesNoPage := by
  intro s m n hv hm hn hlt hready
  have hcut := range_drop_split (m := m) (Nat.le_add_right m n) hlt
  have hd := State.drawable_stripsLeft hm hready
  have hcons := range_drop_cons hlt
  rw [State.stripsLeft, hm, hcut, hcons] at hd
  obtain ⟨u, hrun, hpages, hsink⟩ := renderStrips_stalled hd (by simpa using hn)
  refine ⟨s.waitFor 0x2100 (m + n) u, ?_, by simp [State.waitFor, hpages, hsink], fun room hroom => ?_⟩
  · rw [exec_renderFrame_ok hv, State.stripsLeft, hm, hcut, hcons, hrun]
    rfl
  · have hscene : s.SameScene ((s.waitFor 0x2100 (m + n) u).setSinkRoom room) := by constructor <;> rfl
    obtain ⟨v, hv, heq, -, -⟩ := renderFrameCompletes ((s.waitFor 0x2100 (m + n) u).setSinkRoom room) (m + n) hv rfl
      hlt hroom fun k hk hlt => hready k (by omega) hlt
    refine ⟨v, hv, by rw [heq]; rfl, by rw [heq], ?_⟩
    rw [heq, hscene.pageOf, hcut]
    simp [hpages]

/-! ### An object entry never written (rule R60) -/

/-- The check pass goes past the entries that are ready. -/
theorem State.checkEntries_append {s : State} {k : Nat} {js : List Nat} (h : ∀ j ∈ js, s.entryReady k j)
    (ls : List Nat) : s.checkEntries k (js ++ ls) = s.checkEntries k ls := by
  induction js with
  | nil => rfl
  | cons j js ih =>
    obtain ⟨o, ho, hv⟩ := h j (by simp)
    have hpass : (visible s.cfg o k && !spriteInRange s.cfg o.t) = false := by
      cases hvis : visible s.cfg o k with
      | false => rfl
      | true => simp [hv hvis]
    simp only [List.cons_append, State.checkEntries, ho, hpass]
    exact ih fun l hl => h l (by simp [hl])

/-- The check pass stops at the first entry with a field never written. -/
theorem State.spriteCheck_unwritten {s : State} {k j : Nat} (hj : j < s.objCount.toNat)
    (hready : ∀ i, i < j → s.entryReady k i) (ho : s.objEntry j = none) : s.spriteCheck k = .unwritten j := by
  have hcut := range_drop_split (Nat.zero_le j) hj
  simp only [List.drop_zero] at hcut
  rw [State.spriteCheck, hcut, range_drop_cons hj,
    State.checkEntries_append fun i hi => hready i (List.mem_range.1 hi), State.checkEntries, ho]

/-- RENDER_STRIP stops in its sprite pass as STRIP_SPRITES does (rule R220). -/
theorem renderStripBody_unwritten {s : State} {k j : Nat} (hb : s.bgReady k) (hc : s.spriteCheck k = .unwritten j) :
    renderStripBody k s = .unwritten j := by
  rw [renderStripBody_background (State.firstBadCell_none hb), stripSpritesBody,
    (State.SameScene.withBackground s k).spriteCheck, hc, Body.unwritten_andThen]

/-- Settles O49: the check pass of the strip stops at entry j, in each of the three commands. -/
theorem unwrittenObjectStops : Obligations.UnwrittenObjectStops := by
  intro s k j hk hj hready ho
  have hc := State.spriteCheck_unwritten hj hready ho
  refine ⟨fun hv => ?_, fun hv hb => ?_, fun hv hb hm => ?_⟩
  · rw [exec_stripSprites_ok hk hv, stripSpritesBody, hc, finish_unwritten]
  · rw [exec_renderStrip_ok hk hv, renderStripBody_unwritten hb hc, finish_unwritten]
  · rw [exec_renderFrame_ok hv, State.stripsLeft, hm, range_drop_cons hk, renderStrips, renderStripBody_unwritten hb hc,
      Body.unwritten_andThen, finish_unwritten]

end Sys2Proof.Machine

namespace Sys2Proof.Machine
open Sys2Proof

/-! ### What a command reads (rules R96, R102) -/

/-- The inputs of a command are the same: CTRL, the scroll position, OBJ_COUNT and the object list. -/
def State.SameInputs (s t : State) : Prop :=
  t.ctrl = s.ctrl ∧ t.scrollX = s.scrollX ∧ t.scrollY = s.scrollY ∧ t.objCount = s.objCount ∧ t.obj = s.obj

/-- While BUSY, a host write is dropped or ignored, or it clears STATUS bits (rule R252). -/
theorem WriteEffect.sameInputs {s t : State} (he : WriteEffect s t) (hb : s.busy = true) : s.SameInputs t := by
  cases he with
  | ctrl _ hi => exact Bool.noConfusion (hi.symm.trans hb)
  | scrollX _ hi => exact Bool.noConfusion (hi.symm.trans hb)
  | scrollY _ hi => exact Bool.noConfusion (hi.symm.trans hb)
  | objCount _ hi => exact Bool.noConfusion (hi.symm.trans hb)
  | obj _ _ hi _ => exact Bool.noConfusion (hi.symm.trans hb)
  | _ => exact ⟨rfl, rfl, rfl, rfl, rfl⟩

theorem HostEffect.sameInputs {s t : State} (he : HostEffect s t) (hb : s.busy = true) : s.SameInputs t := by
  cases he with
  | write _ _ rest _ _ _ he => exact he.sameInputs (s := s.setScript rest) hb
  | _ => exact ⟨rfl, rfl, rfl, rfl, rfl⟩

theorem exec_sameInputs {i : Instr} {s t : State} (h : exec i s = .next t) : s.SameInputs t := by
  obtain ⟨-, hctrl, hx, hy, hcount, hobj, -⟩ := commandsKeepHostState i s t h
  exact ⟨hctrl, hx, hy, hcount, hobj⟩

/-- Settles O16: the host's writes are dropped, no command writes its inputs, and the other turns touch none of them. -/
theorem inputsHeldWhileBusy : Obligations.InputsHeldWhileBusy := by
  intro s t h hb hr
  cases (step_cases h).2 with
  | idle _ _ => exact ⟨rfl, rfl, rfl, rfl, rfl⟩
  | command _ _ _ _ _ _ ht => exact exec_sameInputs (s := s.setTurns s.turns.tail) ht
  | illegal _ _ _ _ => exact ⟨rfl, rfl, rfl, rfl, rfl⟩
  | host _ _ ht => exact ht.sameInputs (s := s.setTurns s.turns.tail) hb
  | sink _ _ => exact ⟨rfl, rfl, rfl, rfl, rfl⟩
  | reset hn => exact absurd hn hr

/-! ### Unmapped addresses (rule R92) -/

theorem State.hostWrite_unmapped (s : State) {a : HostAddr} (v : Word) (h : target s.cfg a.toNat = .unmapped) :
    s.hostWrite a v = s := by
  rw [State.hostWrite, h]

/-- Settles O28: the windows of a well-formed configuration do not overlap, so each gap between them is unmapped. -/
theorem unmappedAddresses : Obligations.UnmappedAddresses := by
  intro s a v hwf ha
  have hcap := Config.objCap_le_of_wf hwf
  have hcells := Config.cells_le_of_wf hwf
  have ht : target s.cfg a.toNat = .unmapped := target_unmapped _ (by omega) (by omega) (by omega) (by omega)
  exact ⟨s.hostRead_unmapped ht, s.hostWrite_unmapped v ht⟩

/-! ### One turn, one event (rules R119, R250, R291, R293) -/

theorem State.hostTurn_ended {s : State} (hs : s.script = []) : s.hostTurn = s := by
  rw [State.hostTurn, hs]

theorem State.hostTurn_read {s : State} {a : HostAddr} {rest : List HostOp} (hs : s.script = .read a :: rest) :
    s.hostTurn = { s with script := rest, replies := s.replies ++ [s.hostRead a] } := by
  rw [State.hostTurn, hs]; rfl

theorem State.hostTurn_write {s : State} {a : HostAddr} {v : Word} {rest : List HostOp}
    (hs : s.script = .write a v :: rest) : s.hostTurn = (s.setScript rest).hostWrite a v := by
  rw [State.hostTurn, hs]

/-- WAIT stays in the script exactly while the STATUS word it reads shows BUSY (rule R119). -/
theorem State.hostTurn_wait {s : State} {rest : List HostOp} (hs : s.script = .wait :: rest) :
    s.hostTurn = { s with
      script := if s.busy then .wait :: rest else rest
      replies := s.replies ++ [s.hostRead 0x001] } := by
  rw [State.hostTurn, hs]
  simp only [State.hostRead_addrStatus_busy]
  cases s.busy
  · rfl
  · rw [if_pos rfl, if_pos rfl, ← hs]; rfl

theorem engineTurn_idle {s : State} (hb : s.busy = false) : engineTurn s = .next s := by
  have hq : s.sequencer = none := by simpa [State.busy] using hb
  rw [engineTurn, hq]

/-- Settles O22: each clause is the turn of the agent that moves, with that turn off the list, which no host access
reads. -/
theorem eachTurnIsOneEvent : Obligations.EachTurnIsOneEvent := by
  intro s hwf u
  refine ⟨fun hn => ?_, fun hn hb => ?_, fun room hn => ?_⟩
  · rw [step_eq_takeTurn hwf hn, takeTurn]
    refine ⟨fun hs => ?_, fun a rest hs => ?_, fun a v rest hs => ?_, fun rest hs => ?_⟩
    · rw [State.hostTurn_ended (s := u) hs]
    · rw [State.hostTurn_read (s := u) hs]; rfl
    · rw [State.hostTurn_write (s := u) hs]
    · rw [State.hostTurn_wait (s := u) hs]; rfl
  · rw [step_eq_takeTurn hwf hn]
    exact engineTurn_idle (s := u) hb
  · rw [step_eq_takeTurn hwf hn]; rfl

end Sys2Proof.Machine

namespace Sys2Proof.Machine
open Sys2Proof

/-! ### Decoding against encoding: both are settled by the fields OP and ARG (rule R110) -/

/-- The operand of an encoded command (rule R110). -/
@[simp] theorem wordArg_encode (i : Instr) : wordArg (encode i) = i.arg := (Laws.EncodingFields.fields_append _ _).2

/-- OP and ARG are the whole word (rule R110). -/
theorem wordOp_append_wordArg (w : Word) : wordOp w ++ wordArg w = w := by
  unfold wordOp wordArg
  rw [BitVec.extractLsb'_append_extractLsb'_eq_extractLsb' (show 8 = 0 + 8 from rfl), BitVec.extractLsb'_eq_self]

/-- A word with the fields of a command is the encoding of that command (rule R110). -/
theorem encode_eq_of_fields {w : Word} {i : Instr} (hop : i.op = wordOp w) (harg : i.arg = wordArg w) :
    encode i = w := by
  rw [encode, hop, harg, wordOp_append_wordArg]

/-- A word with the fields of a command decodes to that command (rule R116); the converse of `decode_fields`. -/
theorem decode_of_fields {w : Word} {i : Instr} (hop : i.op = wordOp w) (harg : i.arg = wordArg w) :
    decode w = .ok i := by
  rw [decode, ← hop, ← harg]
  cases i <;> rfl

/-- The OP column of the opcode map (rule R112). -/
def opcodeMap : List Byte := [0x00, 0x01, 0x02, 0x10, 0x11, 0x12, 0x13, 0x20, 0x21]

/-- Every command's opcode is in the opcode map (rule R112). -/
theorem op_mem_opcodeMap (i : Instr) : i.op ∈ opcodeMap := by
  cases i <;> simp [opcodeMap, Instr.op]

/-- The opcode map leaves no gap: each of its opcodes is some command's, with whatever ARG (rules R112, R114). -/
theorem exists_instr_of_mem_opcodeMap {op : Byte} (h : op ∈ opcodeMap) (arg : Byte) :
    ∃ i : Instr, i.op = op ∧ i.arg = arg := by
  simp only [opcodeMap, List.mem_cons, List.not_mem_nil, or_false] at h
  obtain rfl | rfl | rfl | rfl | rfl | rfl | rfl | rfl | rfl := h
  · exact ⟨.nop arg, rfl, rfl⟩
  · exact ⟨.pfReload arg, rfl, rfl⟩
  · exact ⟨.pfAdjust arg, rfl, rfl⟩
  · exact ⟨.stripClear arg, rfl, rfl⟩
  · exact ⟨.stripBg arg, rfl, rfl⟩
  · exact ⟨.stripSprites arg, rfl, rfl⟩
  · exact ⟨.stripEmit arg, rfl, rfl⟩
  · exact ⟨.renderStrip arg, rfl, rfl⟩
  · exact ⟨.renderFrame arg, rfl, rfl⟩

/-- The words that decode are those whose OP is in the opcode map (rules R113, R116). -/
theorem exists_decode_ok_iff (w : Word) : (∃ i, decode w = .ok i) ↔ wordOp w ∈ opcodeMap := by
  constructor
  · rintro ⟨i, hd⟩
    exact (decode_fields hd).1 ▸ op_mem_opcodeMap i
  · intro hmem
    obtain ⟨i, hop, harg⟩ := exists_instr_of_mem_opcodeMap hmem (wordArg w)
    exact ⟨i, decode_of_fields hop harg⟩

/-- Settles O1: the encoding has the fields of its command, and the fields decide what a word decodes to. -/
theorem decodeOfEncode : Obligations.DecodeOfEncode := fun i =>
  decode_of_fields (wordOp_encode i).symm (wordArg_encode i).symm

/-- Settles O2: a command decoded from a word has that word's fields, and the fields are the whole word. -/
theorem encodeOfDecode : Obligations.EncodeOfDecode := fun _ _ hd =>
  have ⟨hop, harg⟩ := decode_fields hd
  encode_eq_of_fields hop harg

/-- Settles O3: a word either decodes, and then its OP is in the map, or is refused by its own name. -/
theorem illegalOutsideOpcodeMap : Obligations.IllegalOutsideOpcodeMap := by
  intro w
  change _ ↔ wordOp w ∉ opcodeMap
  rw [← exists_decode_ok_iff]
  cases hd : decode w with
  | ok i => simp
  | error e => simp [decode_error hd]

/-- Settles O4: nine words are encodings of the listed commands, and the OP 0x03 of the tenth is not in the map. -/
theorem sampleWordsDecode : Obligations.SampleWordsDecode :=
  ⟨decodeOfEncode (.nop 0x00), decodeOfEncode (.pfReload 0x05), decodeOfEncode (.pfAdjust 0x00),
    decodeOfEncode (.stripClear 0x00), decodeOfEncode (.stripBg 0x03), decodeOfEncode (.stripSprites 0x07),
    decodeOfEncode (.stripEmit 0x08), decodeOfEncode (.renderStrip 0x07), decodeOfEncode (.renderFrame 0x00),
    (illegalOutsideOpcodeMap 0x03FF).2 (by decide)⟩

end Sys2Proof.Machine

namespace Sys2Proof.Machine
open Sys2Proof

/-! ### The configuration: the read-only memories and the parameters (rules R82, R148, R264) -/

/-- A host write writes no read-only memory, whatever it selects (rules R148, R252). -/
theorem WriteEffect.keeps_cfg {s t : State} (he : WriteEffect s t) : t.cfg = s.cfg := by
  cases he <;> rfl

theorem HostEffect.keeps_cfg {s t : State} (he : HostEffect s t) : t.cfg = s.cfg := by
  cases he with
  | write _ _ rest _ _ _ he => exact he.keeps_cfg (s := s.setScript rest)
  | _ => rfl

theorem exec_keeps_cfg {i : Instr} {s t : State} (h : exec i s = .next t) : t.cfg = s.cfg :=
  (commandsKeepHostState i s t h).1

/-- Settles O11: commands and host accesses write no part of the configuration, and reset starts again from the one
there is. -/
theorem configurationNeverChanges : Obligations.ConfigurationNeverChanges := by
  intro s t h
  cases (step_cases h).2 with
  | command _ _ _ _ _ _ ht => exact exec_keeps_cfg (s := s.setTurns s.turns.tail) ht
  | host _ _ ht => exact ht.keeps_cfg (s := s.setTurns s.turns.tail)
  | idle _ _ => rfl
  | illegal _ _ _ _ => rfl
  | sink _ _ => rfl
  | reset _ => rfl

end Sys2Proof.Machine

namespace Sys2Proof.Machine
open Sys2Proof

/-! ### An operand that rule R111 forbids -/

theorem operandOk_none_of_ne (c : Config) {arg : Byte} (h : arg ≠ 0x00) : operandOk c .none arg = false := by
  simpa [operandOk] using h

/-- A command whose operand check fails faults BAD_OPERAND with nothing written, whatever its body (rules R114, R276). -/
theorem finish_check_badOperand {ok : Bool} (h : ok = false) (i : Instr) (s : State) (b : Body) :
    finish (encode i) s (check ok s .badOperand (encode i) b) =
      .next (s.faultTaken i.op 0x02 (encode i) 0x0000) := by
  rw [h, check_false, finish_raised, wordOp_encode]
  rfl

/-! ### The cells after a list of RowLoads (rule R163) -/

/-- A loaded logical row holds its map row: the logical rows of one view share no physical row (rule R164). -/
theorem State.loadRows_cell_of_mem (s : State) {ks : List Nat} (hks : ∀ k ∈ ks, k < s.cfg.rows) {k c : Nat}
    (hk : k ∈ ks) (hc : c < s.cfg.cols) :
    (s.loadRows ks).cell (s.physRow k) c = mapByte s.cfg (s.mapRow k) c :=
  (s.loadRows_cell ks _ c hc fun k hk l hl => s.physRow_inj (hks k hk) (hks l hl)).1 k hk rfl

/-- An address whose row is not loaded keeps what it held. -/
theorem State.loadRows_read_of_ne (s : State) (ks : List Nat) {a : Nat}
    (h : ∀ k ∈ ks, a / s.cfg.cols ≠ s.physRow k) : (s.loadRows ks).pf.read a = s.pf.read a := by
  induction ks generalizing s with
  | nil => rfl
  | cons k ks ih =>
    have hcols : 0 < s.cfg.cols := by simp [Config.cols]
    have hload := s.rowLoad_read k (a / s.cfg.cols) (a % s.cfg.cols) (Nat.mod_lt a hcols)
    rw [if_neg (h k (by simp)), Nat.div_add_mod'] at hload
    rw [State.loadRows_cons, ih (s.rowLoad k) fun l hl => h l (by simp [hl]), hload]

theorem State.physRow_lt (s : State) (k : Nat) : s.physRow k < s.cfg.rows := Nat.mod_lt _ (by simp [Config.rows])

/-- No list of RowLoads writes past the cells. -/
theorem State.loadRows_read_beyond (s : State) (ks : List Nat) {a : Nat} (ha : s.cfg.rows * s.cfg.cols ≤ a) :
    (s.loadRows ks).pf.read a = s.pf.read a :=
  s.loadRows_read_of_ne ks fun k _ =>
    ((s.physRow_lt k).trans_le ((Nat.le_div_iff_mul_le (by simp [Config.cols])).2 ha)).ne'

/-- A logical row of the view that is not loaded keeps its cells. -/
theorem State.loadRows_read_of_not_mem (s : State) {ks : List Nat} (hks : ∀ k ∈ ks, k < s.cfg.rows) {k c : Nat}
    (hk : k < s.cfg.rows) (hmem : k ∉ ks) (hc : c < s.cfg.cols) :
    (s.loadRows ks).pf.read (s.physRow k * s.cfg.cols + c) = s.pf.read (s.physRow k * s.cfg.cols + c) := by
  refine s.loadRows_read_of_ne ks fun l hl hrow => hmem ?_
  rw [Nat.mul_comm, Nat.mul_add_div (by omega), Nat.div_eq_of_lt hc, Nat.add_zero] at hrow
  exact s.physRow_inj hk (hks l hl) hrow ▸ hl

theorem State.cell_congr {s t : State} (hcfg : t.cfg = s.cfg) (hres : t.resets = s.resets) {r c : Nat}
    (hread : t.pf.read (r * s.cfg.cols + c) = s.pf.read (r * s.cfg.cols + c)) : t.cell r c = s.cell r c := by
  rw [State.cell, State.cell, State.pfByte, State.pfByte, hcfg, hres, hread]

/-! ### PF_RELOAD (rules R164, R165) -/

/-- The state after a PF_RELOAD that completes (rule R164). -/
def State.reloaded (s : State) : State := (s.loadRows (List.range s.cfg.rows)).setPfOrigin.markPfValid.complete

theorem exec_pfReload (s : State) : exec (.pfReload 0x00) s = .next s.reloaded := exec_pfReload_ok s

theorem State.reloaded_eq (s : State) :
    s.reloaded = { s with
      pf := s.reloaded.pf
      pfOrigin := BitVec.ofNat 13 s.tY
      sequencer := none
      status := { s.status with pfValid := true, done := true } } := by
  rw [State.reloaded, State.loadRows_eq]
  rfl

@[simp] theorem State.reloaded_cfg (s : State) : s.reloaded.cfg = s.cfg := s.loadRows_cfg _

theorem State.reloaded_cell (s : State) {k c : Nat} (hk : k < s.cfg.rows) (hc : c < s.cfg.cols) :
    s.reloaded.cell (s.physRow k) c = mapByte s.cfg (s.mapRow k) c :=
  s.loadRows_cell_of_mem (fun _ => List.mem_range.1) (List.mem_range.2 hk) hc

theorem State.reloaded_read_beyond (s : State) {a : Nat} (ha : s.cfg.rows * s.cfg.cols ≤ a) :
    s.reloaded.pf.read a = s.pf.read a := s.loadRows_read_beyond _ ha

/-- Settles O36: the loop over all logical rows loads each of them, and no other address. -/
theorem pfReloadCompletes : Obligations.PfReloadCompletes := by
  refine ⟨rfl, fun s arg => ⟨?_, fun harg => ?_⟩⟩
  · rintro rfl
    exact ⟨s.reloaded, exec_pfReload s, s.reloaded_eq, fun _ _ => s.reloaded_cell, fun _ => s.reloaded_read_beyond⟩
  · exact finish_check_badOperand (operandOk_none_of_ne s.cfg harg) (.pfReload arg) s (pfReloadBody s)

theorem State.reloaded_consistent (s : State) : s.reloaded.Consistent s.tY := by
  intro k c hk hc
  rw [State.reloaded_cfg] at hk hc ⊢
  exact s.reloaded_cell hk hc

/-- Settles O37: every logical row of the new view was loaded. -/
theorem reloadMakesConsistent : Obligations.ReloadMakesConsistent := fun s =>
  ⟨s.reloaded, exec_pfReload s, s.reloaded_consistent⟩

/-! ### PF_ADJUST (rule R166) -/

/-- The state after a PF_ADJUST that completes (rule R166). -/
def State.adjusted (s : State) : State := (s.loadRows [s.cfg.rows - 2, s.cfg.rows - 1]).setPfOrigin.complete

theorem exec_pfAdjust {s : State} (hv : s.status.pfValid = true) : exec (.pfAdjust 0x00) s = .next s.adjusted :=
  exec_pfAdjust_ok hv

theorem State.adjusted_eq (s : State) :
    s.adjusted = { s with
      pf := s.adjusted.pf
      pfOrigin := BitVec.ofNat 13 s.tY
      sequencer := none
      status := { s.status with done := true } } := by
  rw [State.adjusted, State.loadRows_eq]
  rfl

@[simp] theorem State.adjusted_cfg (s : State) : s.adjusted.cfg = s.cfg := s.loadRows_cfg _

/-- The two border rows are logical rows of the torus (rule R166). -/
theorem State.border_lt_rows (s : State) : ∀ k ∈ [s.cfg.rows - 2, s.cfg.rows - 1], k < s.cfg.rows := by
  simp [Config.rows]

theorem State.adjusted_cell_border (s : State) {k c : Nat} (hk : k = s.cfg.rows - 2 ∨ k = s.cfg.rows - 1)
    (hc : c < s.cfg.cols) : s.adjusted.cell (s.physRow k) c = mapByte s.cfg (s.mapRow k) c :=
  s.loadRows_cell_of_mem s.border_lt_rows (by simpa using hk) hc

theorem State.adjusted_read_inner (s : State) {k c : Nat} (hk : k < s.cfg.rows - 2) (hc : c < s.cfg.cols) :
    s.adjusted.pf.read (s.physRow k * s.cfg.cols + c) = s.pf.read (s.physRow k * s.cfg.cols + c) :=
  s.loadRows_read_of_not_mem s.border_lt_rows (by omega) (by simp only [List.mem_pair]; omega) hc

theorem State.adjusted_cell_inner (s : State) {k c : Nat} (hk : k < s.cfg.rows - 2) (hc : c < s.cfg.cols) :
    s.adjusted.cell (s.physRow k) c = s.cell (s.physRow k) c :=
  State.cell_congr s.adjusted_cfg (s.loadRows_resets _) (s.adjusted_read_inner hk hc)

theorem State.adjusted_read_beyond (s : State) {a : Nat} (ha : s.cfg.rows * s.cfg.cols ≤ a) :
    s.adjusted.pf.read a = s.pf.read a := s.loadRows_read_beyond _ ha

/-- Settles O38: the two border rows are loaded, and no other address. -/
theorem pfAdjustCompletes : Obligations.PfAdjustCompletes := fun s hv =>
  ⟨s.adjusted, exec_pfAdjust hv, s.adjusted_eq, fun _ _ => s.adjusted_cell_border, fun _ _ => s.adjusted_read_inner,
    fun _ => s.adjusted_read_beyond⟩

/-! ### Incremental equals full (rule R167) -/

/-- PF_ADJUST makes the playfield consistent where every logical row above the border holds its map row already. -/
theorem State.adjusted_consistent {s : State}
    (h : ∀ k c, k < s.cfg.rows - 2 → c < s.cfg.cols → s.cell (s.physRow k) c = mapByte s.cfg (s.mapRow k) c) :
    s.adjusted.Consistent s.tY := by
  intro k c hk hc
  rw [State.adjusted_cfg] at hk hc ⊢
  by_cases hin : k < s.cfg.rows - 2
  · exact (s.adjusted_cell_inner hin hc).trans (h k c hin hc)
  · exact s.adjusted_cell_border (by omega) hc

/-- Every physical row stores some logical row of the view at any origin `o`, not only at that of SCROLL_Y
(`State.physRow_surj`). -/
theorem exists_add_mod_eq (o : Nat) {r n : Nat} (hr : r < n) : ∃ k, k < n ∧ (o + k) % n = r := by
  obtain ⟨m, rfl⟩ : ∃ m, n = m + 1 := ⟨n - 1, by omega⟩
  refine ⟨(r + m * o) % (m + 1), Nat.mod_lt _ m.succ_pos, ?_⟩
  rw [Nat.add_mod_mod, show o + (r + m * o) = r + (m + 1) * o by ring, Nat.add_mul_mod_self_left, Nat.mod_eq_of_lt hr]

/-- Consistency at one origin determines every cell (rule R162). -/
theorem State.Consistent.cell_eq {s t : State} {o : Nat} (hs : s.Consistent o) (ht : t.Consistent o)
    (hcfg : t.cfg = s.cfg) {r c : Nat} (hr : r < s.cfg.rows) (hc : c < s.cfg.cols) : t.cell r c = s.cell r c := by
  obtain ⟨k, hk, rfl⟩ := exists_add_mod_eq o hr
  have htk := ht k c (hcfg ▸ hk) (hcfg ▸ hc)
  rw [hcfg] at htk
  rw [htk, hs k c hk hc]

/-- Up to two rows further on, the rows above the new border are rows of the old view (rule R167). -/
theorem State.Consistent.cell_shifted {s : State} {o d : Nat} (h : s.Consistent o) (hd : d ≤ 2) (ht : s.tY = o + d)
    {k c : Nat} (hk : k < s.cfg.rows - 2) (hc : c < s.cfg.cols) :
    s.cell (s.physRow k) c = mapByte s.cfg (s.mapRow k) c := by
  rw [State.physRow, State.mapRow, ht, Nat.add_assoc]
  exact h (d + k) c (by omega) hc

/-- Where MAP_HEIGHT divides ROWS, the physical row alone fixes the map row, at every origin (rule R167). -/
theorem State.Consistent.cell_of_dvd {s : State} {o : Nat} (h : s.Consistent o) (hdvd : s.cfg.mapHeight ∣ s.cfg.rows)
    (k : Nat) {c : Nat} (hc : c < s.cfg.cols) : s.cell (s.physRow k) c = mapByte s.cfg (s.mapRow k) c := by
  obtain ⟨l, hl, hrow⟩ := exists_add_mod_eq o (s.physRow_lt k)
  have hmap : (o + l) % s.cfg.mapHeight = s.mapRow k := by
    rw [← Nat.mod_mod_of_dvd (o + l) hdvd, hrow, State.physRow, Nat.mod_mod_of_dvd _ hdvd, State.mapRow]
  rw [← hrow, h l c hl hc, hmap]

/-- Settles O39: in both cases the rows above the border are right already, so both commands leave a playfield
consistent at one origin. -/
theorem adjustEqualsReload : Obligations.AdjustEqualsReload := by
  intro s o _ hv hcons hcase
  have hadj : s.adjusted.Consistent s.tY := by
    refine State.adjusted_consistent fun k c hk hc => ?_
    obtain ⟨d, hd, ht⟩ | hdvd := hcase
    · exact hcons.cell_shifted hd ht hk hc
    · exact hcons.cell_of_dvd hdvd k hc
  refine ⟨s.adjusted, s.reloaded, exec_pfAdjust hv, exec_pfReload s, hadj, fun r c hr hc => ?_⟩
  exact s.reloaded_consistent.cell_eq hadj (by simp) (by simpa using hr) (by simpa using hc)

end Sys2Proof.Machine

namespace Sys2Proof.Machine
open Sys2Proof

/-! ### Where an entry is visible, and the pixels it covers (rules R182, R183) -/

/-- The three ways of being hidden: below the strip, above it, and right of the display (rule R182). -/
theorem visible_eq_false_iff (c : Config) (o : Obj) (k : Nat) :
    visible c o k = false ↔ 8 * k + 8 ≤ o.y.toNat ∨ o.y.toNat + sprSize o.t ≤ 8 * k ∨ c.width ≤ o.x.toNat := by
  simp only [visible, decide_eq_false_iff_not]
  omega

/-- A pixel that an entry covers on strip `k` lies in the entry's columns and rows. -/
theorem lt_sprSize_of_covers {c : Config} {o : Obj} {x y : Nat} (h : covers c o x y = true) :
    x - o.x.toNat < sprSize o.t ∧ y - o.y.toNat < sprSize o.t := by
  simp only [covers, decide_eq_true_eq] at h
  omega

/-- An entry covers pixels only on strips where it is visible. -/
theorem covers_eq_false_of_not_visible {c : Config} {o : Obj} {k b : Nat} (hb : b < 8) (h : visible c o k = false)
    (x : Nat) : covers c o x (8 * k + b) = false := by
  rw [visible_eq_false_iff] at h
  simp only [covers, decide_eq_false_iff_not]
  omega

/-- A row of a sprite lies in one of its halves (rule R181). -/
theorem div_lt_sprSize_div {t : Byte} {j : Nat} (h : j < sprSize t) : j / 8 < sprSize t / 8 := by
  have hdvd : 8 ∣ sprSize t := by
    unfold sprSize
    split <;> decide
  exact Nat.div_lt_div_of_lt_of_dvd hdvd h

/-! ### The pixel rule (rule R184) -/

section PixelRule

variable {c : Config} {o : Obj} {x y : Nat}

theorem pixelOver_of_covers (h : covers c o x y = true) (old : Bool) :
    pixelOver c o x y old = ((old && (spritePixel c o.t (x - o.x.toNat) (y - o.y.toNat)).1) ||
      (spritePixel c o.t (x - o.x.toNat) (y - o.y.toNat)).2) := if_pos h

theorem pixelOver_of_not_covers (h : covers c o x y = false) (old : Bool) : pixelOver c o x y old = old := by
  rw [pixelOver, h]
  rfl

/-- The pixel rule applied twice is the pixel rule applied once. -/
theorem pixelOver_idem (old : Bool) : pixelOver c o x y (pixelOver c o x y old) = pixelOver c o x y old := by
  cases h : covers c o x y with
  | false => simp only [pixelOver_of_not_covers h]
  | true =>
    simp only [pixelOver_of_covers h]
    cases (spritePixel c o.t (x - o.x.toNat) (y - o.y.toNat)).2 <;> simp

/-- A transparent sprite, mask all 1 and pattern all 0, leaves every pixel. -/
theorem pixelOver_transparent (h : ∀ i q, i < sprSize o.t → q < sprSize o.t / 8 →
    maskByte c o.t i q = 0xFF ∧ patternByte c o.t i q = 0x00) (old : Bool) : pixelOver c o x y old = old := by
  cases hc : covers c o x y with
  | false => exact pixelOver_of_not_covers hc old
  | true =>
    obtain ⟨hi, hj⟩ := lt_sprSize_of_covers hc
    obtain ⟨hm, hp⟩ := h _ _ hi (div_lt_sprSize_div hj)
    have hbits : ∀ n, n < 8 → (0xFF : Byte).getLsbD n = true ∧ (0x00 : Byte).getLsbD n = false := by decide
    obtain ⟨h1, h0⟩ := hbits _ (Nat.mod_lt (y - o.y.toNat) (by decide))
    rw [pixelOver_of_covers hc, spritePixel, hm, hp, h1, h0, Bool.and_true, Bool.or_false]

/-- An opaque sprite, mask all 0, makes every pixel it covers its pattern bit. -/
theorem pixelOver_opaque (h : ∀ i q, i < sprSize o.t → q < sprSize o.t / 8 → maskByte c o.t i q = 0x00)
    (hc : covers c o x y = true) (old : Bool) :
    pixelOver c o x y old = (spritePixel c o.t (x - o.x.toNat) (y - o.y.toNat)).2 := by
  obtain ⟨hi, hj⟩ := lt_sprSize_of_covers hc
  have hm : (spritePixel c o.t (x - o.x.toNat) (y - o.y.toNat)).1 = false := by
    rw [spritePixel, h _ _ hi (div_lt_sprSize_div hj)]
    exact BitVec.getLsbD_zero
  rw [pixelOver_of_covers hc, hm, Bool.and_false, Bool.false_or]

end PixelRule

/-- Settles O50: the laws of the pixel rule, read at each pixel of the drawn strip. -/
theorem transparencyLaws : Obligations.TransparencyLaws := by
  intro s o k x b hb
  refine ⟨fun h => ?_, fun h hc => ?_, ?_, fun hc hp => ?_⟩
  · refine BitVec.eq_of_getLsbD_eq fun n hn => ?_
    rw [State.drawObj_getLsbD k s o x hn, pixelOver_transparent h]
  · rw [State.drawObj_getLsbD k s o x hb, pixelOver_opaque h hc]
  · refine BitVec.eq_of_getLsbD_eq fun n hn => ?_
    rw [State.drawObj_getLsbD k _ o x hn, State.drawObj_cfg, State.drawObj_getLsbD k s o x hn, pixelOver_idem]
  · rw [State.drawObj_getLsbD k s o x hb, pixelOver_of_covers hc, hp, Bool.or_true]

/-- Settles O51: the pixel rule of the second entry, applied to what the pixel rule of the first one left. -/
theorem laterEntryOnTop : Obligations.LaterEntryOnTop := by
  intro s o₁ o₂ k x b hb h₁ h₂ p₁ p₂ v
  have hv : v = (((((s.stripByte x).getLsbD b && p₁.1) || p₁.2) && p₂.1) || p₂.2) := by
    have hsecond := State.drawObj_getLsbD k (s.drawObj k o₁) o₂ x hb
    rwa [State.drawObj_cfg, pixelOver_of_covers h₂, State.drawObj_getLsbD k s o₁ x hb, pixelOver_of_covers h₁]
      at hsecond
  refine ⟨hv, fun hopaque => ?_⟩
  rw [hv, hopaque, Bool.and_false, Bool.false_or]

/-! ### The draw pass, pixel by pixel (rules R180, R188) -/

theorem State.SameScene.ofDrawEntry (s : State) (k j : Nat) : s.SameScene (s.drawEntry k j) := by constructor <;> simp

theorem State.SameScene.pixelAfter {s u : State} (h : s.SameScene u) : u.pixelAfter = s.pixelAfter := by
  funext x y ks old
  simp only [State.pixelAfter, h.objEntry, h.cfg]

theorem State.pixelAfter_cons (s : State) (x y j : Nat) (js : List Nat) (old : Bool) :
    s.pixelAfter x y (j :: js) old = s.pixelAfter x y js (s.pixelAfter x y [j] old) := rfl

theorem State.pixelAfter_singleton {s : State} {j : Nat} {o : Obj} (ho : s.objEntry j = some o) (x y : Nat)
    (old : Bool) : s.pixelAfter x y [j] old = pixelOver s.cfg o x y old := by
  simp [State.pixelAfter, ho]

theorem State.drawEntry_of_visible {s : State} {k j : Nat} {o : Obj} (ho : s.objEntry j = some o)
    (hv : visible s.cfg o k = true) : s.drawEntry k j = s.drawObj k o := by
  simp [State.drawEntry, ho, hv]

theorem State.drawEntry_of_not_visible {s : State} {k j : Nat} {o : Obj} (ho : s.objEntry j = some o)
    (hv : visible s.cfg o k = false) : s.drawEntry k j = s := by
  simp [State.drawEntry, ho, hv]

/-- One entry's turn in the draw pass is the pixel rule: where it is skipped it covers no pixel of the strip. -/
theorem State.drawEntry_getLsbD (k : Nat) (s : State) (j x : Nat) {b : Nat} (hb : b < 8) :
    ((s.drawEntry k j).stripByte x).getLsbD b = s.pixelAfter x (8 * k + b) [j] ((s.stripByte x).getLsbD b) := by
  cases ho : s.objEntry j with
  | none => simp [State.drawEntry, State.pixelAfter, ho]
  | some o =>
    rw [State.pixelAfter_singleton ho]
    cases hv : visible s.cfg o k with
    | true => rw [State.drawEntry_of_visible ho hv, State.drawObj_getLsbD k s o x hb]
    | false =>
      rw [State.drawEntry_of_not_visible ho hv, pixelOver_of_not_covers (covers_eq_false_of_not_visible hb hv x)]

theorem State.drawEntries_getLsbD (k : Nat) (s : State) (js : List Nat) (x : Nat) {b : Nat} (hb : b < 8) :
    ((js.foldl (State.drawEntry k) s).stripByte x).getLsbD b =
      s.pixelAfter x (8 * k + b) js ((s.stripByte x).getLsbD b) := by
  induction js generalizing s with
  | nil => rfl
  | cons j js ih =>
    rw [List.foldl_cons, ih, (State.SameScene.ofDrawEntry s k j).pixelAfter, State.drawEntry_getLsbD k s j x hb,
      State.pixelAfter_cons s x _ j js]

/-- The draw pass writes no byte past the last one of the strip (rule R183). -/
theorem State.drawAll_read_beyond (k : Nat) (s : State) {x : Nat} (hx : s.cfg.width ≤ x) :
    (s.drawAll k).strip.read x = s.strip.read x :=
  State.drawAll_induct k s (fun m => m.read x = s.strip.read x) rfl fun m y v hy hm => by
    rw [Memory.read_write_ne _ _ (by omega), hm]

/-- STRIP_SPRITES whose check pass passes is its draw pass. -/
theorem exec_stripSprites_ready {s : State} {k : Byte} (hk : k.toNat < s.cfg.vr) (hv : s.status.stripValid = true)
    (hready : s.spritesReady k.toNat) : exec (.stripSprites k) s = .next (s.drawAll k.toNat).complete := by
  rw [exec_stripSprites_ok hk hv, stripSpritesBody, State.spriteCheck_pass hready, finish_done]

/-- Settles O46: the draw pass is the pixel rule entry by entry, and writes bytes of the strip alone. -/
theorem stripSpritesDrawsPixels : Obligations.StripSpritesDrawsPixels := by
  intro s k hk hv hready
  refine ⟨(s.drawAll k.toNat).complete, exec_stripSprites_ready hk hv hready, ?_, fun x b _ hb => ?_,
    fun x hx => State.drawAll_read_beyond k.toNat s hx⟩
  · rw [State.drawAll_eq]
    rfl
  · exact State.drawEntries_getLsbD k.toNat s _ x hb

/-! ### A list with no visible entry (rule R182) -/

theorem State.drawAll_of_not_visible {s : State} {k : Nat}
    (h : ∀ j, j < s.objCount.toNat → ∃ o, s.objEntry j = some o ∧ visible s.cfg o k = false) : s.drawAll k = s := by
  refine List.foldlRecOn (motive := (· = s)) _ _ rfl fun u hu j hj => ?_
  obtain ⟨o, ho, hv⟩ := h j (List.mem_range.1 hj)
  rw [hu, State.drawEntry_of_not_visible ho hv]

/-- Settles O47: the check pass faults none of the hidden entries and the draw pass skips them all. -/
theorem invisibleEntriesSkipped : Obligations.InvisibleEntriesSkipped := by
  intro s k hk hv hidden
  have hinv : ∀ j, j < s.objCount.toNat → ∃ o, s.objEntry j = some o ∧ visible s.cfg o k.toNat = false :=
    fun j hj => by
      obtain ⟨o, ho, hpos⟩ := hidden j hj
      exact ⟨o, ho, (visible_eq_false_iff s.cfg o k.toNat).2 hpos⟩
  have hready : s.spritesReady k.toNat := fun j hj => by
    obtain ⟨o, ho, hvis⟩ := hinv j hj
    exact ⟨o, ho, fun h => absurd h (by simp [hvis])⟩
  rw [exec_stripSprites_ready hk hv hready, State.drawAll_of_not_visible hinv]
  rfl

/-! ### The lowest visible entry out of range (rules R188, R278) -/

/-- The check pass stops at the first entry that is visible and out of range. -/
theorem State.spriteCheck_bad {s : State} {k j : Nat} {o : Obj} (hj : j < s.objCount.toNat)
    (hready : ∀ i, i < j → s.entryReady k i) (ho : s.objEntry j = some o) (hv : visible s.cfg o k = true)
    (hbad : spriteInRange s.cfg o.t = false) : s.spriteCheck k = .bad j o.t := by
  have hcut := range_drop_split (Nat.zero_le j) hj
  simp only [List.drop_zero] at hcut
  rw [State.spriteCheck, hcut, range_drop_cons hj,
    State.checkEntries_append fun i hi => hready i (List.mem_range.1 hi)]
  simp [State.checkEntries, ho, hv, hbad]

/-- Settles O48: the check pass stops at entry j, before anything is drawn. -/
theorem spriteIndexFault : Obligations.SpriteIndexFault := by
  intro s k j o hk hv hj hready ho hvis hbad
  rw [exec_stripSprites_ok hk hv, stripSpritesBody, State.spriteCheck_bad hj hready ho hvis hbad, finish_raised,
    wordOp_encode, BitVec.ofNat_toNat, BitVec.setWidth_eq]
  rfl

end Sys2Proof.Machine

namespace Sys2Proof.Machine
open Sys2Proof

/-! ### A strip buffer filled with given bytes (rules R54, R211, R216) -/

/-- `u` is `s` with the bytes `f` in the strip buffer and STRIP_VALID set. -/
structure State.Filled (s : State) (f : Nat → Byte) (u : State) : Prop where
  eq : u = { s with strip := u.strip, status := { s.status with stripValid := true } }
  read : ∀ x, u.strip.read x = if x < s.cfg.width then some (f x) else s.strip.read x

theorem State.filled_fillStrip (s : State) (f : Nat → Byte) : s.Filled f (s.fillStrip f) := ⟨rfl, s.fillStrip_read f⟩

/-- The background covers all that the clear wrote. -/
theorem State.filled_withBackground (s : State) (k : Nat) : s.Filled (s.bgByte k) (s.withBackground k) where
  eq := rfl
  read x := by
    rw [State.withBackground, State.fillStrip_read, State.fillStrip_read, State.fillStrip_cfg]
    split <;> rfl

theorem State.Filled.read_beyond {s u : State} {f : Nat → Byte} (h : s.Filled f u) {x : Nat} (hx : s.cfg.width ≤ x) :
    u.strip.read x = s.strip.read x := by
  rw [h.read, if_neg (Nat.not_lt.2 hx)]

theorem State.Filled.stripByte {s u : State} {f : Nat → Byte} (h : s.Filled f u) {x : Nat} (hx : x < s.cfg.width) :
    u.stripByte x = f x := by
  rw [State.stripByte, h.read, if_pos hx, Option.getD_some]

/-- A command that ends with the strip buffer filled leaves everything else but DONE and the sequencer (rule R256). -/
theorem State.Filled.complete {s u : State} {f : Nat → Byte} (h : s.Filled f u) :
    u.complete = { s with
      strip := u.complete.strip, sequencer := none, status := { s.status with stripValid := true, done := true } } ∧
    (∀ x, x < s.cfg.width → u.complete.stripByte x = f x) ∧
    (∀ x, s.cfg.width ≤ x → u.complete.strip.read x = s.strip.read x) :=
  ⟨congrArg State.complete h.eq, fun _ => h.stripByte, fun _ => h.read_beyond⟩

/-- Settles O40: STRIP_CLEAR is a fill with zeros, behind its operand check alone. -/
theorem stripClearCompletes : Obligations.StripClearCompletes := by
  refine ⟨rfl, fun s arg => ⟨fun h => ?_, fun h => ?_⟩⟩
  · rw [h]
    exact ⟨_, exec_stripClear_ok s, (s.filled_fillStrip _).complete⟩
  · exact finish_check_badOperand (operandOk_none_of_ne s.cfg h) (.stripClear arg) s (stripClearBody s)

/-! ### STRIP_BG (rules R215, R216) -/

/-- STRIP_BG whose check pass passes is a fill with the background. -/
theorem exec_stripBg_ready {s : State} {k : Byte} (hk : k.toNat < s.cfg.vr) (hv : s.status.pfValid = true)
    (hb : s.firstBadCell k.toNat = none) :
    exec (.stripBg k) s = .next (s.fillStrip (s.bgByte k.toNat)).complete := by
  rw [exec_stripBg_ok hk hv, stripBgBody, hb, finish_done]

/-- Settles O41: the fill writes `bgByte`, which is the formula of rule R215. -/
theorem stripBgCompletes : Obligations.StripBgCompletes := fun s k hk hv hb =>
  ⟨_, exec_stripBg_ready hk hv (State.firstBadCell_none hb), (s.filled_fillStrip (s.bgByte k.toNat)).complete⟩

/-- The record's info word of a fault on strip `k` (rules R277, R278). -/
theorem catBytes_ofNat_toNat_self (k t : Byte) : catBytes (BitVec.ofNat 8 k.toNat) t = k ++ t := by
  rw [BitVec.ofNat_toNat, BitVec.setWidth_eq, catBytes]

/-- STRIP_BG faults at the first sampled cell out of range, before anything is written (rule R277). -/
theorem exec_stripBg_badCell {s : State} {k : Byte} {rc : Nat × Nat} (hk : k.toNat < s.cfg.vr)
    (hv : s.status.pfValid = true) (hb : s.firstBadCell k.toNat = some rc) :
    exec (.stripBg k) s =
      .next (s.faultTaken 0x11 0x05 (k ++ s.cell rc.1 rc.2) (BitVec.ofNat 16 (rc.1 * s.cfg.cols + rc.2))) := by
  rw [exec_stripBg_ok hk hv, stripBgBody, hb, finish_raised, wordOp_encode, catBytes_ofNat_toNat_self]
  rfl

/-- Where every column before `x` samples cells in range, the check pass comes to the cells of column `x`
(rule R280). -/
theorem State.firstBadCell_of_column {s : State} {k x : Nat} {rc : Nat × Nat} (hx : x < s.cfg.width)
    (hbefore : ∀ x', x' < x → ∀ rc ∈ s.sampledAt k x', tileInRange s.cfg (s.cell rc.1 rc.2) = true)
    (hat : (s.sampledAt k x).find? (fun rc => !tileInRange s.cfg (s.cell rc.1 rc.2)) = some rc) :
    s.firstBadCell k = some rc := by
  have hcut := range_drop_split (Nat.zero_le x) hx
  rw [List.drop_zero, List.drop_zero, range_drop_cons hx] at hcut
  have hnone : ((List.range x).flatMap (s.sampledAt k)).find? (fun rc => !tileInRange s.cfg (s.cell rc.1 rc.2)) = none :=
    List.find?_eq_none.2 fun rc hrc => by
      obtain ⟨x', hx', hrc⟩ := List.mem_flatMap.1 hrc
      simp [hbefore x' (List.mem_range.1 hx') rc hrc]
  rw [State.firstBadCell, State.sampled, hcut, List.flatMap_append, List.flatMap_cons, List.find?_append, hnone,
    List.find?_append, hat]
  rfl

/-- Settles O42: in column x the current row is checked first, then, where it is sampled, the next row. -/
theorem stripBgTileFault : Obligations.StripBgTileFault := by
  intro s k x hk hv hx hbefore c r0 r1
  refine ⟨fun hbad => ?_, fun hgood hy hbad => ?_⟩
  · refine exec_stripBg_badCell (rc := (r0, c)) hk hv (State.firstBadCell_of_column hx hbefore ?_)
    have hout : tileInRange s.cfg (s.cell r0 c) = false := decide_eq_false (Nat.not_lt.2 hbad)
    unfold State.sampledAt
    split <;> exact List.find?_cons_of_pos (by simp [c, r0, hout])
  · refine exec_stripBg_badCell (rc := (r1, c)) hk hv (State.firstBadCell_of_column hx hbefore ?_)
    have hin : tileInRange s.cfg (s.cell r0 c) = true := decide_eq_true hgood
    have hout : tileInRange s.cfg (s.cell r1 c) = false := decide_eq_false (Nat.not_lt.2 hbad)
    rw [State.sampledAt, if_neg hy, List.find?_cons_of_neg (by simp [c, r0, hin])]
    exact List.find?_cons_of_pos (by simp [c, r1, hout])

/-! ### The background, bit by bit (rules R218, R222) -/

/-- The top bits come from the current row's byte, the ones shifted past it from the next row's. -/
theorem combineRows_getLsbD (a b : Byte) {y n : Nat} (hy : y < 8) (hn : n < 8) :
    (combineRows a b y).getLsbD n = if n + y < 8 then a.getLsbD (n + y) else b.getLsbD (n + y - 8) := by
  rw [combineRows, shr8, shl8, BitVec.getLsbD_or, BitVec.getLsbD_ushiftRight, BitVec.getLsbD_shiftLeft,
    show n - (8 - y) = n + y - 8 by omega, Nat.add_comm y n]
  split
  · next h => simp [show n < 8 - y by omega]
  · next h => simp [hn, show ¬ n < 8 - y by omega, BitVec.getLsbD_of_ge a (n + y) (Nat.not_lt.1 h)]

/-- Settles O43: `combineRows` is the shift pair, read at bit n. -/
theorem verticalShiftBits : Obligations.VerticalShiftBits := fun a b _ _ _ hy hn => combineRows_getLsbD a b hy hn

/-- The next torus row of strip `k` stores logical row `k + 1` (rules R160, R214). -/
theorem State.row1_eq_physRow (s : State) (k : Nat) : s.row1 k = s.physRow (k + 1) := Nat.mod_add_mod ..

theorem State.bYOff_lt (s : State) : s.bYOff < 8 := by
  unfold State.bYOff
  split <;> omega

/-- Bit `b` of a background byte is a bit of the current tile row or, past its end, of the next one (rule R215). -/
theorem State.bgByte_getLsbD (s : State) (k x : Nat) {b : Nat} (hb : b < 8) :
    (s.bgByte k x).getLsbD b =
      if b + s.bYOff < 8 then
        (tileByte s.cfg (s.cell (s.physRow k) (s.bgCol x)) (s.bgPixel x % 8)).getLsbD (b + s.bYOff)
      else (tileByte s.cfg (s.cell (s.physRow (k + 1)) (s.bgCol x)) (s.bgPixel x % 8)).getLsbD (b + s.bYOff - 8) := by
  rw [← State.row1_eq_physRow, State.bgByte]
  by_cases hy : s.bYOff = 0
  · simp only [hy, if_true, Nat.add_zero, hb]
    rfl
  · simp only [if_neg hy]
    exact combineRows_getLsbD _ _ s.bYOff_lt hb

/-- In a consistent playfield, pixel `n` of the tile that logical row `i` shows in column `x` is the world's
(rules R162, R222). -/
theorem State.Consistent.tile_eq_world {s : State} (h : s.Consistent s.tY) {i n : Nat} (hi : i < s.cfg.rows) (hn : n < 8)
    (x : Nat) :
    (tileByte s.cfg (s.cell (s.physRow i) (s.bgCol x)) (s.bgPixel x % 8)).getLsbD n =
      world s.cfg (8 * s.tX + s.bgPixel x) (8 * (s.tY + i) + n) := by
  have hcell : s.cell (s.physRow i) (s.bgCol x) = mapByte s.cfg ((s.tY + i) % s.cfg.mapHeight) (s.bgCol x) :=
    h i (s.bgCol x) hi (Nat.mod_lt _ (by simp [Config.cols]))
  rw [hcell, world, Nat.mul_add_mod, Nat.mul_add_mod, Nat.mod_eq_of_lt hn, Nat.mul_add_div (by decide),
    Nat.mul_add_div (by decide), Nat.div_eq_of_lt hn, Nat.add_zero, State.bgCol]

/-- The background of a consistent playfield is the world at the scroll position (rule R222). -/
theorem State.Consistent.bgByte_eq_world {s : State} (h : s.Consistent s.tY) {k b : Nat} (hk : k < s.cfg.vr) (hb : b < 8)
    (x : Nat) :
    (s.bgByte k x).getLsbD b = world s.cfg (8 * s.tX + s.bXOff + x) (8 * s.tY + s.bYOff + 8 * k + b) := by
  have hrows : k + 1 < s.cfg.rows := by simp only [Config.rows]; omega
  have hx : 8 * s.tX + s.bXOff + x = 8 * s.tX + s.bgPixel x := Nat.add_assoc ..
  have hy := s.bYOff_lt
  rw [State.bgByte_getLsbD s k x hb, hx]
  split
  · next hcur =>
    rw [h.tile_eq_world (by omega) hcur]
    congr 1
    omega
  · next hnext =>
    rw [h.tile_eq_world hrows (by omega)]
    congr 1
    omega

/-- Settles O44: the bytes STRIP_BG writes are the world's, and with both enables the offsets are the scroll registers. -/
theorem backgroundShowsWorld : Obligations.BackgroundShowsWorld := by
  intro s k _ hk hv hb hcons
  refine ⟨_, exec_stripBg_ready hk hv (State.firstBadCell_none hb), fun x b hx hb => ?_⟩
  obtain ⟨-, hbyte, -⟩ := (s.filled_fillStrip (s.bgByte k.toNat)).complete
  have hworld := hcons.bgByte_eq_world hk hb x
  rw [hbyte x hx]
  refine ⟨hworld, fun hex hey => ?_⟩
  have hsx : 8 * s.tX + s.bXOff = s.scrollX.toNat := by
    rw [State.bXOff, if_pos hex, State.tX, Nat.div_add_mod]
  have hsy : 8 * s.tY + s.bYOff = s.scrollY.toNat := by
    rw [State.bYOff, if_pos hey, State.tY, Nat.div_add_mod]
  rw [hworld, hsx, hsy]

/-- Settles O45: one more tile of scroll samples the column and the tile pixel of eight columns further on. -/
theorem tileScrollTranslates : Obligations.TileScrollTranslates := by
  intro s v k x hv
  have hpix : (s.setScrollX v).bgPixel x % 8 = s.bgPixel (x + 8) % 8 := by
    simp only [State.bgPixel, State.bXOff, State.setScrollX_ctrl, State.setScrollX_scrollX, hv]
    split <;> omega
  have hcol : (s.setScrollX v).bgCol x = s.bgCol (x + 8) := by
    simp only [State.bgCol, State.bgPixel, State.bXOff, State.tX, State.setScrollX_ctrl, State.setScrollX_scrollX,
      State.setScrollX_cfg, hv]
    congr 1
    split <;> omega
  rw [State.bgByte, State.bgByte, hpix, hcol]
  rfl

/-! ### STRIP_EMIT and the sub-steps of RENDER_STRIP (rules R219, R220) -/

/-- STRIP_EMIT where the sink takes a page (rule R219). -/
theorem exec_stripEmit_taken {s : State} {k : Byte} (hk : k.toNat < s.cfg.vr) (hv : s.status.stripValid = true)
    (hr : s.sinkRoom ≠ some 0) :
    exec (.stripEmit k) s = .next (s.emitPage { index := k.toNat, bytes := s.stripBytes }).complete := by
  rw [exec_stripEmit_ok hk hv, stripEmitBody, if_neg hr, finish_done]

/-- Settles O53: the page is handed over, or the command waits with nothing done. -/
theorem stripEmitAppendsPage : Obligations.StripEmitAppendsPage := by
  intro s k hk hv
  refine ⟨exec_stripEmit_taken hk hv, fun hr => ?_⟩
  rw [exec_stripEmit_ok hk hv, stripEmitBody, if_pos hr]
  rfl

/-- RENDER_STRIP where its check passes pass and the sink takes the page (rule R220). -/
theorem exec_renderStrip_ready {s : State} {k : Byte} (hk : k.toNat < s.cfg.vr) (hv : s.status.pfValid = true)
    (hb : s.bgReady k.toNat) (hready : s.spritesReady k.toNat) (hr : s.sinkRoom ≠ some 0) :
    exec (.renderStrip k) s =
      .next ((s.withStrip k.toNat).emitPage
        { index := k.toNat, bytes := (s.withStrip k.toNat).stripBytes }).complete := by
  have hr' : (s.withStrip k.toNat).sinkRoom ≠ some 0 := by rwa [State.withStrip_eq]
  rw [exec_renderStrip_ok hk hv, renderStripBody_ready (State.firstBadCell_none hb) (State.spriteCheck_pass hready),
    stripEmitBody, if_neg hr', finish_done]

/-! ### Drawing does not read the flags and the sequencer -/

theorem State.drawObj_complete (k : Nat) (s : State) (o : Obj) : s.complete.drawObj k o = (s.drawObj k o).complete :=
  List.foldl_hom State.complete fun _ _ => rfl

theorem State.drawEntry_complete (k : Nat) (s : State) (j : Nat) :
    s.complete.drawEntry k j = (s.drawEntry k j).complete := by
  rw [State.drawEntry, State.drawEntry, (State.SameScene.complete s).objEntry]
  cases s.objEntry j with
  | none => rfl
  | some o => simp only [State.complete_cfg, State.drawObj_complete, apply_ite State.complete]

theorem State.drawAll_complete (k : Nat) (s : State) : s.complete.drawAll k = (s.drawAll k).complete :=
  List.foldl_hom State.complete fun u j => State.drawEntry_complete k u j

theorem State.SameScene.spritesReady {s u : State} (h : s.SameScene u) {k : Nat} (hr : s.spritesReady k) :
    u.spritesReady k := fun j hj => by
  obtain ⟨o, ho, hv⟩ := hr j (h.objCount ▸ hj)
  exact ⟨o, (h.objEntry j).trans ho, by rwa [h.cfg]⟩

/-- Settles O54: each sub-step finds the scene of `s`, and the flags it sets are those RENDER_STRIP ends with. -/
theorem renderStripIsItsSubSteps : Obligations.RenderStripIsItsSubSteps := by
  intro s k hk hv hb hready hr
  have h₁ : s.SameScene (s.fillStrip fun _ => 0x00#8).complete := (State.SameScene.fillStrip s _).trans (.complete _)
  have h₂ : s.SameScene (s.withBackground k.toNat).complete := (State.SameScene.withBackground s _).trans (.complete _)
  have hbg : exec (.stripBg k) (s.fillStrip fun _ => 0x00#8).complete = .next (s.withBackground k.toNat).complete :=
    (exec_stripBg_ready (s := (s.fillStrip fun _ => 0x00#8).complete) hk hv
      ((h₁.firstBadCell _).trans (State.firstBadCell_none hb))).trans (by rw [h₁.bgByte]; rfl)
  have hspr : exec (.stripSprites k) (s.withBackground k.toNat).complete = .next (s.withStrip k.toNat).complete :=
    (exec_stripSprites_ready (s := (s.withBackground k.toNat).complete) hk rfl (h₂.spritesReady hready)).trans
      (by rw [State.drawAll_complete]; rfl)
  refine ⟨_, _, _, _, exec_stripClear_ok s, hbg, hspr, ?_, exec_renderStrip_ready hk hv hb hready hr⟩
  have h₃ := State.withStrip_eq s k.toNat
  exact exec_stripEmit_taken (by rwa [h₃]) (by rw [h₃]; rfl) (by rwa [h₃])

/-- A strip drawn in the buffer is the pixel rule over its background (rules R184, R220). -/
theorem State.withStrip_getLsbD (s : State) (k : Nat) {x b : Nat} (hx : x < s.cfg.width) (hb : b < 8) :
    ((s.withStrip k).stripByte x).getLsbD b =
      s.pixelAfter x (8 * k + b) (List.range s.objCount.toNat) ((s.bgByte k x).getLsbD b) := by
  have h := State.drawEntries_getLsbD k (s.withBackground k) (List.range s.objCount.toNat) x hb
  rwa [(State.SameScene.withBackground s k).pixelAfter, (s.filled_withBackground k).stripByte hx] at h

/-- Settles O55: the strip is drawn in the buffer and its page handed over. -/
theorem renderStripCompletes : Obligations.RenderStripCompletes := by
  intro s k hk hv hb hready hr
  refine ⟨_, exec_renderStrip_ready hk hv hb hready hr, ?_, fun x b hx hb => s.withStrip_getLsbD _ hx hb,
    fun x hx => s.withStrip_read_beyond _ hx⟩
  rw [State.withStrip_eq]
  rfl

/-! ### A fault while a strip is rendered (rules R220, R279, R280) -/

/-- Rendering strip `k` of the scene of `s` raises this fault and leaves the bytes `f` in the strip buffer, whatever the
buffer, the pages and the flags are when it starts. -/
def State.StripFaults (s : State) (k : Nat) (f : Nat → Byte) (code : FaultCode) (info loc : Word) : Prop :=
  ∀ u, s.SameScene u → ∃ v, u.Filled f v ∧ renderStripBody k u = .raised v code info loc

/-- A sampled cell out of range is found after the clear and before the background (rules R216, R220). -/
theorem State.stripFaults_badCell {s : State} {k : Nat} {rc : Nat × Nat} (h : s.firstBadCell k = some rc) :
    s.StripFaults k (fun _ => 0x00#8) .tileIndexOor (catBytes (BitVec.ofNat 8 k) (s.cell rc.1 rc.2))
      (BitVec.ofNat 16 (rc.1 * s.cfg.cols + rc.2)) := by
  intro u hu
  have hc := hu.trans (State.SameScene.fillStrip u fun _ => 0x00#8)
  refine ⟨_, u.filled_fillStrip _, ?_⟩
  rw [renderStripBody, stripClearBody, Body.done_andThen, stripBgBody, hc.firstBadCell, h]
  simp only [Body.raised_andThen, hc.cell, hc.cfg]

/-- A visible entry out of range is found after the background and before anything is drawn (rules R188, R220). -/
theorem State.stripFaults_badSprite {s : State} {k e : Nat} {t : Byte} (hb : s.bgReady k)
    (h : s.spriteCheck k = .bad e t) :
    s.StripFaults k (s.bgByte k) .spriteIndexOor (catBytes (BitVec.ofNat 8 k) t) (BitVec.ofNat 16 e) := by
  intro u hu
  refine ⟨_, hu.bgByte k ▸ u.filled_withBackground k, ?_⟩
  rw [renderStripBody_background ((hu.firstBadCell k).trans (State.firstBadCell_none hb)), stripSpritesBody,
    (hu.trans (.withBackground u k)).spriteCheck, h, Body.raised_andThen]

/-- A fault with the strip buffer filled leaves everything else but the record, FAULT and the sequencer (rule R276). -/
theorem State.Filled.raiseFault {s u : State} {f : Nat → Byte} (h : s.Filled f u) (op : Byte) (code : FaultCode)
    (info loc : Word) :
    let t := u.raiseFault op code info loc
    t = { (s.faultTaken op (0#4 ++ code.number) info loc) with
      strip := t.strip, status := { s.status with stripValid := true, fault := true } } ∧
    (∀ x, x < s.cfg.width → t.stripByte x = f x) ∧ ∀ x, s.cfg.width ≤ x → t.strip.read x = s.strip.read x :=
  ⟨congrArg (·.raiseFault op code info loc) h.eq, fun _ => h.stripByte, fun _ => h.read_beyond⟩

/-- RENDER_STRIP of a strip that faults. -/
theorem State.StripFaults.exec_renderStrip {s : State} {k t : Byte} {f : Nat → Byte} {code : FaultCode} {loc : Word}
    (h : s.StripFaults k.toNat f code (catBytes (BitVec.ofNat 8 k.toNat) t) loc) (hk : k.toNat < s.cfg.vr)
    (hv : s.status.pfValid = true) :
    ∃ u, s.Filled f u ∧ exec (.renderStrip k) s = .next (u.raiseFault 0x20 code (k ++ t) loc) := by
  obtain ⟨u, hu, hbody⟩ := h s (.refl s)
  refine ⟨u, hu, ?_⟩
  rw [exec_renderStrip_ok hk hv, hbody, finish_raised, wordOp_encode, catBytes_ofNat_toNat_self]
  rfl

/-- Settles O57: what each of the two check passes finds ends the command with the buffer as filled so far. -/
theorem renderStripFaults : Obligations.RenderStripFaults := by
  intro s k hk hv
  refine ⟨fun rc hrc => ?_, fun j o hb hj hready ho hvis hbad => ?_⟩
  · obtain ⟨u, hu, hexec⟩ := (State.stripFaults_badCell hrc).exec_renderStrip hk hv
    exact ⟨_, hexec, hu.raiseFault ..⟩
  · have hcheck := State.spriteCheck_bad hj hready ho hvis hbad
    obtain ⟨u, hu, hexec⟩ := (State.stripFaults_badSprite hb hcheck).exec_renderStrip hk hv
    exact ⟨_, hexec, hu.raiseFault ..⟩

/-- RENDER_FRAME from strip `m` on with a fault in strip `j`: the pages before `j` are handed over, and the fault is that
of strip `j` on the scene of `s` (rule R221). -/
theorem State.StripFaults.exec_renderFrame {s : State} {m j : Nat} {f : Nat → Byte} {code : FaultCode} {info loc : Word}
    (h : s.StripFaults j f code info loc) (hv : s.status.pfValid = true) (hm : s.stripInProgress = m) (hmj : m ≤ j)
    (hj : j < s.cfg.vr) (hroom : ∀ n, s.sinkRoom = some n → j - m ≤ n)
    (hready : ∀ k, m ≤ k → k < j → s.bgReady k ∧ s.spritesReady k) :
    ∃ t, exec (.renderFrame 0x00) s = .next t ∧
      t = { (s.faultTaken 0x21 (0#4 ++ code.number) info loc) with
        strip := t.strip
        pages := s.pages ++ ((List.range j).drop m).map s.pageOf
        sinkRoom := s.sinkRoom.map (· - (j - m))
        status := { s.status with stripValid := true, fault := true } } ∧
      (∀ x, x < s.cfg.width → t.stripByte x = f x) ∧ ∀ x, s.cfg.width ≤ x → t.strip.read x = s.strip.read x := by
  have hlen : ((List.range j).drop m).length = j - m := by simp
  have hd : s.Drawable ((List.range j).drop m) := State.drawable_of_ready fun k hk => by
    obtain ⟨i, hi, rfl⟩ := List.mem_drop_iff_getElem.1 hk
    simp only [List.getElem_range, List.length_range] at hi ⊢
    exact hready _ (by omega) (by omega)
  obtain ⟨b, valid, hrun, hbeyond, -⟩ := renderStrips_done hd (by rwa [hlen])
  obtain ⟨u, hu, hbody⟩ := h _ (.afterPages s ((List.range j).drop m) b valid)
  obtain ⟨heq, hbytes, hpast⟩ := hu.raiseFault 0x21 code info loc
  refine ⟨u.raiseFault 0x21 code info loc, ?_, heq.trans ?_, hbytes, fun x hx => (hpast x hx).trans (hbeyond x hx)⟩
  · rw [exec_renderFrame_ok hv, State.stripsLeft, hm, range_drop_split hmj hj, range_drop_cons hj,
      renderStrips_append hrun, renderStrips, hbody, Body.raised_andThen, finish_raised, wordOp_encode]
    rfl
  · simp only [State.afterPages, State.faultTaken, hlen]

/-- Settles O59: the frame fault of either check pass of strip j. -/
theorem renderFrameFaultKeepsEarlierPages : Obligations.RenderFrameFaultKeepsEarlierPages := by
  intro s m j hv hm hmj hj hroom hready
  refine ⟨fun rc hrc => ?_, fun e o hb he hentries ho hvis hbad => ?_⟩
  · exact (State.stripFaults_badCell hrc).exec_renderFrame hv hm hmj hj hroom hready
  · have hcheck := State.spriteCheck_bad he hentries ho hvis hbad
    exact (State.stripFaults_badSprite hb hcheck).exec_renderFrame hv hm hmj hj hroom hready

end Sys2Proof.Machine

namespace Sys2Proof.Machine
open Sys2Proof

/-! ### What a host write does to each writable register (rules R252, R253, R257 to R260) -/

theorem State.hostWrite_ctrl (s : State) (v : Word) :
    s.hostWrite 0x000 v = if s.busy then s.dropWrite else s.setCtrl (ctrlOfWord v) := rfl

theorem State.hostWrite_status (s : State) (v : Word) : s.hostWrite 0x001 v = s.statusWrite v := rfl

theorem State.hostWrite_cmd (s : State) (w : Word) :
    s.hostWrite 0x002 w = if s.busy then s.dropWrite else s.cmdWrite w := rfl

theorem State.hostWrite_scrollX (s : State) (v : Word) :
    s.hostWrite 0x003 v = if s.busy then s.dropWrite else s.setScrollX v := rfl

theorem State.hostWrite_scrollY (s : State) (v : Word) :
    s.hostWrite 0x004 v = if s.busy then s.dropWrite else s.setScrollY v := rfl

theorem State.hostWrite_objCount (s : State) (v : Word) :
    s.hostWrite 0x005 v = if s.busy then s.dropWrite else s.setObjCount (objCountOf s.cfg v) := rfl

theorem State.hostWrite_objField {s : State} {a : HostAddr} {i : Nat} (v : Word)
    (h : target s.cfg a.toNat = .objField i) :
    s.hostWrite a v = if s.busy then s.dropWrite else s.setObj (s.obj.write i (v.extractLsb' 0 8)) := by
  rw [State.hostWrite, h]

/-! ### Dropped writes (rules R252, R294) -/

/-- `DropsWrite` is what it says: the write sets WR_IGNORED and does nothing else. -/
theorem State.hostWrite_of_dropsWrite {s : State} {a : HostAddr} (v : Word) (h : s.DropsWrite a) :
    s.hostWrite a v = s.dropWrite := by
  rcases h with ⟨rfl, hf⟩ | ⟨hb, rfl | rfl | rfl | rfl | rfl | hfield⟩
  · rw [State.hostWrite_cmd, State.cmdWrite, if_pos hf, ite_self]
  · rw [State.hostWrite_ctrl, if_pos hb]
  · rw [State.hostWrite_cmd, if_pos hb]
  · rw [State.hostWrite_scrollX, if_pos hb]
  · rw [State.hostWrite_scrollY, if_pos hb]
  · rw [State.hostWrite_objCount, if_pos hb]
  · have ht : target s.cfg a.toNat = .objField (a.toNat - 0x400) :=
      target_objField s.cfg (by omega) (by omega) (by omega)
    rw [State.hostWrite_objField v ht, if_pos hb]

/-- While BUSY, a write that is not dropped does nothing, unless it is to STATUS (rules R252, R309). -/
theorem State.hostWrite_of_not_dropsWrite {s : State} {a : HostAddr} (v : Word) (hb : s.busy = true) (ha : a ≠ 0x001)
    (h : ¬ s.DropsWrite a) : s.hostWrite a v = s := by
  unfold State.hostWrite
  split
  case h_1 ht => exact absurd (hostAddr_of_target_reg ht) ha
  case h_2 ht | h_3 ht | h_4 ht | h_5 ht | h_6 ht => exact absurd (State.dropsWrite_of_reg hb ht (by decide)) h
  case h_7 i ht =>
    obtain ⟨hi, hf, hai⟩ := eq_of_target_objField ht
    exact absurd (.inr ⟨hb, by omega⟩) h
  all_goals rfl

/-- Settles O30: while BUSY, the locations listed are those whose write is dropped. -/
theorem busyWritesDropped : Obligations.BusyWritesDropped := by
  intro s a v hb ha
  split
  · next hw => exact State.hostWrite_of_dropsWrite v (.inr ⟨hb, hw⟩)
  · next hw =>
    refine State.hostWrite_of_not_dropsWrite v hb ha fun hd => ?_
    rcases hd with ⟨hcmd, -⟩ | ⟨-, hd⟩
    · exact hw (.inr (.inl hcmd))
    · exact hw hd

/-- Settles O31: FAULT decides between the drop and the acceptance. -/
theorem commandAcceptance : Obligations.CommandAcceptance := by
  intro s w hb
  refine ⟨fun hf => State.hostWrite_of_dropsWrite w (.inl ⟨rfl, hf⟩), fun hf => ?_⟩
  rw [State.hostWrite_cmd, if_neg (by simp [hb]), State.cmdWrite, if_neg (by simp [hf])]
  exact ⟨rfl, rfl⟩

/-! ### STATUS writes (rule R257) -/

/-- Clearing a flag where a bit is 1. -/
theorem and_not_eq_ite (flag bit : Bool) : (flag && !bit) = if bit then false else flag := by
  cases bit <;> simp

/-- With DONE and FAULT 0, as they are while BUSY (rule R285), a STATUS write clears WR_IGNORED at most. -/
theorem Status.clear_of_noEnd {st : Status} (hd : st.done = false) (hf : st.fault = false) (v : Word) :
    st.clear v = { st with wrIgnored := st.wrIgnored && !v.getLsbD 5 } := by
  simp [Status.clear, hd, hf]

theorem Status.clear_zero (st : Status) : st.clear 0x0000 = st := by
  simp [Status.clear]

/-- Settles O33: the write is `Status.clear`, and with the invariant DONE and FAULT are 0 while BUSY. -/
theorem statusWriteClears : Obligations.StatusWriteClears := by
  intro s v
  simp only [State.hostWrite_status, State.statusWrite, ← and_not_eq_ite]
  refine ⟨rfl, rfl, ?_, fun hinv hb => ?_⟩
  · rw [Status.clear_zero]
    rfl
  · obtain ⟨hd, hf⟩ := hinv.busyClear hb
    rw [Status.clear_of_noEnd hd hf]
    rfl

/-! ### Register writes while idle (rules R258 to R260) -/

theorem objCountOf_toNat (c : Config) (v : Word) : (objCountOf c v).toNat = min (v.toNat % 256) c.objCap := by
  simp only [objCountOf, BitVec.toNat_ofNat, BitVec.extractLsb'_toNat, Nat.shiftRight_zero]
  omega

/-- CTRL reads back the four bits that were written (rules R31, R258). -/
theorem State.setCtrl_ctrlWord_getLsbD (s : State) (v : Word) {n : Nat} (hn : n < 4) :
    (s.setCtrl (ctrlOfWord v)).ctrlWord.getLsbD n = v.getLsbD n := by
  rw [State.ctrlWord_getLsbD]
  interval_cases n <;> simp [ctrlOfWord]

/-- Settles O34: with BUSY 0 each write is its register's update. -/
theorem idleRegisterWrites : Obligations.IdleRegisterWrites := by
  intro s v _ hb
  have hidle : ¬ s.busy = true := by simp [hb]
  rw [State.hostWrite_ctrl, State.hostWrite_scrollX, State.hostWrite_scrollY, State.hostWrite_objCount,
    if_neg hidle, if_neg hidle, if_neg hidle, if_neg hidle]
  exact ⟨⟨rfl, rfl, fun _ hn => s.setCtrl_ctrlWord_getLsbD v hn⟩, rfl, rfl, objCountOf s.cfg v,
    objCountOf_toNat s.cfg v, rfl⟩

/-! ### The engine's turn, NOP, and a command that waits on the sink (rules R254, R255, R291) -/

/-- A step on the engine's turn is the engine's turn of the latched command. -/
theorem step_of_engine {s : State} {q : Running} {i : Instr} (hwf : s.cfg.wf = true) (hq : s.sequencer = some q)
    (hd : decode q.word = .ok i) (hn : s.nextTurn = .engine) : step s = exec i (s.setTurns s.turns.tail) :=
  (step_eq_takeTurn hwf hn).trans (engineTurn_command (s := s.setTurns s.turns.tail) hq hd)

/-- Settles O5: in both cases the engine moves next; with no turn listed, because it is busy. -/
theorem stepRunsDecodedCommand : Obligations.StepRunsDecodedCommand := by
  intro s q i hwf hq hd
  refine ⟨fun ht => ?_, fun rest ht => ?_⟩
  · have hn : s.nextTurn = .engine := by simp [State.nextTurn_of_nil ht, State.busy, hq]
    rw [step_of_engine hwf hq hd hn, State.setTurns_tail_of_nil ht]
  · rw [step_of_engine hwf hq hd (State.nextTurn_of_turns ht), ht, List.tail_cons]

theorem exec_nop_ok (s : State) : exec (.nop 0x00) s = .next s.complete := rfl

/-- Settles O35: behind its operand check NOP only completes. -/
theorem nopCompletes : Obligations.NopCompletes := by
  refine ⟨rfl, fun s arg => ⟨fun h => ?_, fun h => ?_⟩⟩
  · rw [h]
    exact exec_nop_ok s
  · exact finish_check_badOperand (operandOk_none_of_ne s.cfg h) (.nop arg) s (.done s)

/-- Settles O56: the drawn strip is not kept, and its pages and sink are those of acceptance. -/
theorem renderStripWaits : Obligations.RenderStripWaits := by
  intro s k hk hv hb hready hr
  have hr' : (s.withStrip k.toNat).sinkRoom = some 0 := by rwa [State.withStrip_eq]
  rw [exec_renderStrip_ok hk hv, renderStripBody_ready (State.firstBadCell_none hb) (State.spriteCheck_pass hready),
    stripEmitBody, if_pos hr', finish_stalled, State.withStrip_eq]
  rfl

end Sys2Proof.Machine

namespace Sys2Proof.Machine
open Sys2Proof

/-! ### The fault causes checked before a command's body, in the order of rules R273 to R275 -/

/-- Taking a fault is what the statements write out (rules R271, R276). -/
theorem State.raiseFault_eq_faultTaken (s : State) (op : Byte) (code : FaultCode) (info loc : Word) :
    s.raiseFault op code info loc = s.faultTaken op (0#4 ++ code.number) info loc := rfl

/-- With a command latched, both ways the engine comes to move run its turn (rule R255, log entry 5). -/
theorem step_eq_engineTurn {s : State} (hwf : s.cfg.wf = true) (hb : s.busy = true) :
    (s.turns = [] → step s = engineTurn s) ∧
      ∀ rest, s.turns = .engine :: rest → step s = engineTurn (s.setTurns rest) := by
  refine ⟨fun ht => ?_, fun rest ht => ?_⟩
  · have hn : s.nextTurn = .engine := by rw [State.nextTurn_of_nil ht, if_pos hb]
    rw [step_eq_takeTurn hwf hn, State.setTurns_tail_of_nil ht, takeTurn]
  · rw [step_eq_takeTurn hwf (State.nextTurn_of_turns ht), ht, List.tail_cons, takeTurn]

/-- Settles O6: an OP outside the opcode map does not decode, so the engine's turn is the fault ILLEGAL_CMD. -/
theorem illegalWordFaults : Obligations.IllegalWordFaults := by
  intro s q hwf hq hop
  have hd : decode q.word = .error (.illegalCmd q.word) := (illegalOutsideOpcodeMap q.word).2 hop
  obtain ⟨hnil, hcons⟩ := step_eq_engineTurn hwf (by rw [State.busy, hq, Option.isSome_some])
  exact ⟨fun ht => (hnil ht).trans (engineTurn_illegal hq hd),
    fun rest ht => (hcons rest ht).trans (engineTurn_illegal (s := s.setTurns rest) hq hd)⟩

/-- The state precondition of command `i` in front of the rest `b` of its body (rule R275). -/
def statePrecondition (i : Instr) (s : State) (b : Body) : Body :=
  match i with
  | .pfAdjust _ | .stripBg _ | .renderStrip _ | .renderFrame _ => check s.status.pfValid s .pfNotLoaded (encode i) b
  | .stripSprites _ | .stripEmit _ => check s.status.stripValid s .stripNotValid (encode i) b
  | .nop _ | .pfReload _ | .stripClear _ => b

/-- Every command checks its operand, then its state precondition, then runs (rules R274, R275). -/
theorem exec_eq_checks (i : Instr) (s : State) : ∃ b, exec i s =
    finish (encode i) s (check (i.wellFormed s.cfg) s .badOperand (encode i) (statePrecondition i s b)) := by
  cases i <;> exact ⟨_, rfl⟩

/-- A command whose check fails faults with that check's code and writes nothing else (rules R274 to R276). -/
theorem finish_check_fault {ok : Bool} (h : ok = false) (i : Instr) (s : State) (code : FaultCode) (b : Body) :
    finish (encode i) s (check ok s code (encode i) b) =
      .next (s.faultTaken i.op (0#4 ++ code.number) (encode i) 0x0000) := by
  rw [h, check_false, finish_raised, wordOp_encode, State.raiseFault_eq_faultTaken]

/-- Settles O7: the operand check comes first, whatever stands behind it. -/
theorem badOperandFaults : Obligations.BadOperandFaults := by
  intro i s hbad
  obtain ⟨b, hexec⟩ := exec_eq_checks i s
  exact hexec.trans (finish_check_fault hbad i s .badOperand _)

/-- Settles O8: with its operand allowed, a command is its state precondition and then its body, and the commands
without a precondition complete with ARG = 0. -/
theorem statePreconditions : Obligations.StatePreconditions := by
  intro i s hok
  obtain ⟨b, hexec⟩ := exec_eq_checks i s
  rw [hok, check_true] at hexec
  cases i with
  | pfAdjust _ | stripBg _ | renderStrip _ | renderFrame _ =>
    exact fun hv => hexec.trans (finish_check_fault hv _ s .pfNotLoaded b)
  | stripSprites _ | stripEmit _ => exact fun hv => hexec.trans (finish_check_fault hv _ s .stripNotValid b)
  | nop arg =>
    obtain rfl : arg = 0x00 := eq_of_beq hok
    exact ⟨_, exec_nop_ok s, rfl, rfl, rfl⟩
  | pfReload arg =>
    obtain rfl : arg = 0x00 := eq_of_beq hok
    rw [exec_pfReload, s.reloaded_eq]
    exact ⟨_, rfl, rfl, rfl, rfl⟩
  | stripClear arg =>
    obtain rfl : arg = 0x00 := eq_of_beq hok
    exact ⟨_, exec_stripClear_ok s, rfl, rfl, rfl⟩

/-! ### Host writes while FAULT = 1 (rule R282) -/

/-- A pending FAULT leaves the engine idle (rules R276, R285). -/
theorem State.Inv.idle_of_fault {s : State} (h : s.Inv) (hf : s.status.fault = true) : s.busy = false := by
  refine Bool.eq_false_iff.2 fun hb => ?_
  obtain ⟨-, hclear⟩ := h.busyClear hb
  exact Bool.noConfusion (hf.symm.trans hclear)

/-- Settles O32: FAULT drops the CMD write, and the other writes ask for BUSY alone, which is 0. -/
theorem stickyFault : Obligations.StickyFault := by
  intro s v hinv hf
  have hb := hinv.idle_of_fault hf
  have hidle : ¬ s.busy = true := by simp [hb]
  refine ⟨hb, State.hostWrite_of_dropsWrite v (.inl ⟨rfl, hf⟩), ?_, ?_, ?_, ?_, fun a k f ha hk hlt => ?_⟩
  · rw [State.hostWrite_ctrl, if_neg hidle]; rfl
  · rw [State.hostWrite_scrollX, if_neg hidle]; rfl
  · rw [State.hostWrite_scrollY, if_neg hidle]; rfl
  · rw [State.hostWrite_objCount, if_neg hidle]; rfl
  · have ht : target s.cfg a.toNat = .objField (4 * k + f) :=
      target_objField s.cfg (by omega) (by omega) (by omega)
    rw [State.hostWrite_objField v ht, if_neg hidle]; rfl

end Sys2Proof.Machine

namespace Sys2Proof.Machine
open Sys2Proof

/-! ### A draw pass repeated (rules R189, R311) -/

theorem monotone_bool_idem {f : Bool → Bool} (hf : Monotone f) (v : Bool) : f (f v) = f v := by
  have h : f false ≤ f true := hf (Bool.false_le true)
  cases v with
  | false =>
    cases hF : f false with
    | false => exact hF
    | true => exact top_le_iff.1 (hF.symm.trans_le h)
  | true =>
    cases hT : f true with
    | false => exact le_bot_iff.1 (h.trans_eq hT)
    | true => exact hT

/-- A lit pixel never comes out darker than an unlit one: the mask is an AND and the pattern an OR (rule R184). -/
theorem pixelOver_monotone (c : Config) (o : Obj) (x y : Nat) : Monotone (pixelOver c o x y) := fun a b hab => by
  cases h : covers c o x y with
  | false => simpa only [pixelOver_of_not_covers h] using hab
  | true =>
    simp only [pixelOver_of_covers h]
    exact sup_le_sup_right (inf_le_inf_right _ hab) _

theorem State.pixelAfter_monotone (s : State) (x y : Nat) (js : List Nat) : Monotone (s.pixelAfter x y js) := by
  induction js with
  | nil => exact monotone_id
  | cons j js ih =>
    have hj : Monotone (s.pixelAfter x y [j]) := by
      cases ho : s.objEntry j with
      | none => exact fun a b hab => by simpa [State.pixelAfter, ho] using hab
      | some o => exact funext (State.pixelAfter_singleton ho x y) ▸ pixelOver_monotone s.cfg o x y
    exact ih.comp hj

theorem State.drawAll_getLsbD (s : State) (k x : Nat) {b : Nat} (hb : b < 8) :
    ((s.drawAll k).stripByte x).getLsbD b =
      s.pixelAfter x (8 * k + b) (List.range s.objCount.toNat) ((s.stripByte x).getLsbD b) :=
  State.drawEntries_getLsbD k s _ x hb

/-- The draw pass over its own result changes no strip byte. -/
theorem State.drawAll_drawAll_stripByte (s : State) (k x : Nat) :
    ((s.drawAll k).drawAll k).stripByte x = (s.drawAll k).stripByte x := by
  have hscene := State.SameScene.drawAll s k
  refine BitVec.eq_of_getLsbD_eq fun b hb => ?_
  rw [(s.drawAll k).drawAll_getLsbD k x hb, hscene.pixelAfter, hscene.objCount, s.drawAll_getLsbD k x hb]
  exact monotone_bool_idem (s.pixelAfter_monotone _ _ _) _

/-- Settles O52: the second command finds the scene of the first, and its draw pass repeats the first one's. -/
theorem spritesTwiceIsOnce : Obligations.SpritesTwiceIsOnce := by
  intro s k hk hv hready
  have hscene : s.SameScene (s.drawAll k.toNat).complete := (State.SameScene.drawAll s _).trans (.complete _)
  have hvalid : (s.drawAll k.toNat).complete.status.stripValid = true := by rw [State.drawAll_eq]; exact hv
  refine ⟨_, _, exec_stripSprites_ready hk hv hready,
    exec_stripSprites_ready (hscene.cfg ▸ hk) hvalid (hscene.spritesReady hready), fun x _ => ?_⟩
  rw [State.drawAll_complete]
  exact s.drawAll_drawAll_stripByte k.toNat x

/-! ### The reset state (rules R59, R301) -/

/-- Power-on is a reset event but for the count of resets, which the invariant does not read. -/
theorem State.powerOn_inv (c : Config) : (State.powerOn c).Inv := { (State.powerOn c).resetEvent_inv with }

/-- Settles O9: the reference instance's reset state is its power-on state. -/
theorem resetMeetsInvariant : Obligations.ResetMeetsInvariant :=
  ⟨State.powerOn_inv, State.powerOn_inv Config.reference⟩

end Sys2Proof.Machine
